-- ==== Sys2Proof/Word.lean ====
section
/-! DEFINITION. The plain data types of the D740's conventions (spec 00_scope.md, section 5): bytes of the outside
formats, volume serials, grid points, request ids, sides, and the keyed tables the blocks hold. -/

namespace Sys2Proof

/-- One byte of a host record or a line frame. -/
abbrev Byte := BitVec 8

/-- A volume serial as carried: six symbol values in character order (R1). -/
structure Volser where
  s1 : Nat
  s2 : Nat
  s3 : Nat
  s4 : Nat
  s5 : Nat
  s6 : Nat
deriving DecidableEq, Repr, Inhabited

/-- A grid point (column, tier) of the wall grid. -/
structure Point where
  col : Nat
  tier : Nat
deriving DecidableEq, Repr, Inhabited

/-- A request id or mount id s/q: the originating station and its sequence. -/
structure ReqId where
  station : Nat
  seq : Nat
deriving DecidableEq, Repr, Inhabited

/-- The two sides of the aisle. West is toward lower station addresses. -/
inductive Side where
  | west
  | east
deriving DecidableEq, Repr, Inhabited

/-- The counts a drive reports at unload (R89). -/
structure Counts where
  blocksRead : Nat
  blocksWritten : Nat
  recoveries : Nat
  hardError : Bool
deriving DecidableEq, Repr, Inhabited

/-- A table indexed by number: (key, entry) pairs with keys strictly rising; a key not listed holds nothing. -/
abbrev Table (α : Type) := List (Nat × α)

end Sys2Proof
end

