-- ==== Sys2Proof/Config.lean ====
section
/-! DEFINITION. The device numbers of spec 00_scope.md section 7, and the one value the spec leaves undefined. -/

namespace Sys2Proof.Config

/-- The grid point of a fixed location whose item has not been taken: R90 calls a drive's position "undefined until a DV
item for the drive is taken", and the spec gives none for a park position, cell or mouth whose item is absent. A free value
for each location, told apart by the number it is applied to (assumption 7): nothing can be proved of one, nor that two are
equal. -/
opaque undefinedPoint : Nat → Point

/-- Records in the command FIFO (R195). -/
def commandPlaces : Nat := 8
/-- Records in the report FIFO (R195). -/
def reportPlaces : Nat := 32
/-- Frames in the transmit queue (R35). -/
def transmitPlaces : Nat := 16
/-- Positions of the learnt table (R14). -/
def learntPositions : Nat := 256
/-- Slots of the wall (R2). -/
def slots : Nat := 4096
/-- Records in the origin table (R47). -/
def originPlaces : Nat := 16
/-- Records in the bid table (chapter 3). -/
def bidPlaces : Nat := 32
/-- Records in the mount table (R95). -/
def mountPlaces : Nat := 16
/-- Orders in the order queue, the arm position not counted (R114). -/
def orderPlaces : Nat := 12
/-- Records in an inbound list and in the undelivered deposits (R135). -/
def lanePlaces : Nat := 6
/-- FETCH and UNSERVED prompts together (R156). -/
def openPromptPlaces : Nat := 20
/-- Entries of the remote prompt list (R169). -/
def remotePlaces : Nat := 8
/-- Held plus live at which the station is withdrawn (R58, R189). -/
def withdrawLevel : Nat := 496
/-- The largest estimate (R81). -/
def topEstimate : Nat := 65534
/-- The largest charge of one record (R182). -/
def topCharge : Nat := 16777215
/-- The largest 32-bit count: the station clock, an accumulator, a block count. -/
def top32 : Nat := 4294967295
/-- The largest 16-bit count. -/
def top16 : Nat := 65535

end Sys2Proof.Config
end

