-- ==== Sys2Proof/Syntax.lean ====
section
/-! DEFINITION. The commands and events of the part: one constructor per row of spec/opcode_table.json, with the row's
operands. -/

namespace Sys2Proof

/-- A host command record (section 11.7): command code, tag, payload. -/
structure CmdRec where
  code : Byte
  tag : Byte
  payload : List Byte
deriving DecidableEq, Repr, Inhabited

/-- A frame heard on the library line (section 11.7), its kind given by the event that carries it. -/
structure RawFrame where
  dst : Byte
  src : Byte
  seq : Byte
  payload : List Byte
  check : BitVec 16
deriving DecidableEq, Repr, Inhabited

/-- The levels on the strap inputs (R203). -/
structure StrapPins where
  address : Nat
  drives : Nat
  west : Bool
  east : Bool
deriving DecidableEq, Repr, Inhabited

/-- The result field of a COMPLETION (section 6.2). -/
inductive ArmResult where
  | ok
  | sourceEmpty
  | destOccupied
  | gripFault
  | armFault
deriving DecidableEq, Repr, Inhabited

/-- One row of spec/opcode_table.json. Each host command carries its record's tag and payload; each frame received carries
the frame as heard; an expiry names the timer's owner. -/
inductive Instr where
  | commandWrite (r : CmdRec)
  | reportRead
  | reportPlaceGrant
  | configure (tag : Byte) (payload : List Byte)
  | start (tag : Byte) (payload : List Byte)
  | quiesce (tag : Byte) (payload : List Byte)
  | resume (tag : Byte) (payload : List Byte)
  | reset (tag : Byte) (payload : List Byte)
  | deviceReset (straps : StrapPins) (held : Bool)
  | status (tag : Byte) (payload : List Byte)
  | mount (tag : Byte) (payload : List Byte)
  | cancel (tag : Byte) (payload : List Byte)
  | dirRead (tag : Byte) (payload : List Byte)
  | dirWrite (tag : Byte) (payload : List Byte)
  | dirDelete (tag : Byte) (payload : List Byte)
  | dirSearch (tag : Byte) (payload : List Byte)
  | dirClear (tag : Byte) (payload : List Byte)
  | varyDrive (tag : Byte) (payload : List Byte)
  | varyLane (tag : Byte) (payload : List Byte)
  | audit (tag : Byte) (payload : List Byte)
  | armResume (tag : Byte) (payload : List Byte)
  | drain (tag : Byte) (payload : List Byte)
  | accountRead (tag : Byte) (payload : List Byte)
  | accountClear (tag : Byte) (payload : List Byte)
  | stationClockTick
  | frameCheckFail (bytes : List Byte)
  | ownAddressHello (f : RawFrame)
  | helloReceived (f : RawFrame)
  | locateReceived (f : RawFrame)
  | holdingReceived (f : RawFrame)
  | offerReceived (f : RawFrame)
  | bidReceived (f : RawFrame)
  | awardReceived (f : RawFrame)
  | acceptReceived (f : RawFrame)
  | declineReceived (f : RawFrame)
  | revokeReceived (f : RawFrame)
  | cancelFrameReceived (f : RawFrame)
  | progressReceived (f : RawFrame)
  | resultReceived (f : RawFrame)
  | fetchReceived (f : RawFrame)
  | notHereReceived (f : RawFrame)
  | depositReceived (f : RawFrame)
  | creditReceived (f : RawFrame)
  | promptNoticeReceived (f : RawFrame)
  | promptClearedReceived (f : RawFrame)
  | ackReceived (f : RawFrame)
  | transmitAttemptStart
  | echoMismatch
  | attemptSuccess
  | ackWaitExpiry
  | txWaitingFrameEnters
  | presenceIntervalExpiry
  | silenceTimerExpiry (peer : Nat)
  | learntLifetimeExpiry (position : Nat)
  | locateWindowExpiry (id : ReqId)
  | bidWindowExpiry (id : ReqId)
  | awardAnswerExpiry (id : ReqId)
  | bidRecordExpiry (id : ReqId)
  | mountWatchExpiry (id : ReqId)
  | sourcingLocal (id : ReqId)
  | orderOfferTaken
  | armCompletion (number : Nat) (result : ArmResult) (symbols : Option (List Nat))
  | auditCursorStep
  | ready (drive : Nat)
  | loadFailed (drive : Nat)
  | unloaded (drive : Nat) (counts : Counts)
  | offline (drive : Nat)
  | online (drive : Nat)
  | loadWaitExpiry (id : ReqId)
  | arrivalLimitExpiry (id : ReqId)
  | doneKey
  | cannotKey
  | nextKey
  | doorSwitch (isOpen : Bool)
  | promptPostingEnters
  | promptReminder (number : Nat)
  | promptEscalation (number : Nat)
  | fetchExpiry (number : Nat)
  | ringExpiry (number : Nat)
  | wearHandover
  | resetPinRelease
deriving DecidableEq, Repr

end Sys2Proof
end

