-- ==== Sys2Proof/WellFormed.lean ====
section
/-! DEFINITION. Which commands the outside world can send: operands inside the ranges the ports' formats give them. The
machine is total on every command; these checks say which ones a port can carry. -/

namespace Sys2Proof

/-- A host record's payload length lies in 0-240 (section 11.7). -/
def payloadFits (p : List Byte) : Bool := p.length ≤ 240

/-- A frame's payload holds 0-24 bytes (section 2.1). -/
def RawFrame.fits (f : RawFrame) : Bool := f.payload.length ≤ 24

/-- Strap levels: an address 0-15 and a drive count whose input reads 0-15 (R203). -/
def StrapPins.fits (p : StrapPins) : Bool := p.address ≤ 15 && p.drives ≤ 15

/-- A request id: station 0-15, sequence 0-255. -/
def ReqId.fits (i : ReqId) : Bool := i.station ≤ 15 && i.seq ≤ 255

/-- The counts of UNLOADED in the ranges of R89. -/
def Counts.fits (c : Counts) : Bool :=
  c.blocksRead ≤ Config.top32 && c.blocksWritten ≤ Config.top32 && c.recoveries ≤ Config.top16

/-- The label symbols of a COMPLETION: eight values 0-63 (section 6.2). -/
def readingFits : Option (List Nat) → Bool
  | none => true
  | some l => l.length = 8 && l.all (· ≤ 63)

/-- A command is well formed when every operand lies in the range its port's format gives it. -/
def Instr.wellFormed : Instr → Bool
  | .commandWrite r => payloadFits r.payload
  | .configure _ p | .start _ p | .quiesce _ p | .resume _ p | .reset _ p | .status _ p | .mount _ p | .cancel _ p
  | .dirRead _ p | .dirWrite _ p | .dirDelete _ p | .dirSearch _ p | .dirClear _ p | .varyDrive _ p | .varyLane _ p
  | .audit _ p | .armResume _ p | .drain _ p | .accountRead _ p | .accountClear _ p => payloadFits p
  | .deviceReset p _ => p.fits
  | .frameCheckFail _ => true
  | .ownAddressHello f | .helloReceived f | .locateReceived f | .holdingReceived f | .offerReceived f | .bidReceived f
  | .awardReceived f | .acceptReceived f | .declineReceived f | .revokeReceived f | .cancelFrameReceived f
  | .progressReceived f | .resultReceived f | .fetchReceived f | .notHereReceived f | .depositReceived f
  | .creditReceived f | .promptNoticeReceived f | .promptClearedReceived f | .ackReceived f => f.fits
  | .silenceTimerExpiry a => a ≤ 15
  | .learntLifetimeExpiry k => k ≤ 255
  | .locateWindowExpiry i | .bidWindowExpiry i | .awardAnswerExpiry i | .bidRecordExpiry i | .mountWatchExpiry i
  | .sourcingLocal i | .loadWaitExpiry i | .arrivalLimitExpiry i => i.fits
  | .armCompletion n _ l => n ≤ 255 && readingFits l
  | .ready d | .loadFailed d | .offline d | .online d => d ≤ 7
  | .unloaded d c => d ≤ 7 && c.fits
  | .promptReminder n | .promptEscalation n | .fetchExpiry n | .ringExpiry n => n ≤ 255
  | .reportRead | .reportPlaceGrant | .stationClockTick | .transmitAttemptStart | .echoMismatch | .attemptSuccess
  | .ackWaitExpiry | .txWaitingFrameEnters | .presenceIntervalExpiry | .orderOfferTaken | .auditCursorStep | .doneKey
  | .cannotKey | .nextKey | .doorSwitch _ | .promptPostingEnters | .wearHandover | .resetPinRelease => true

end Sys2Proof
end

