-- ==== Sys2Proof/Machine/State.lean ====
section
/-! DEFINITION. The state of the D740, block by block (spec 00_scope.md section 3), as plain data; its state after device
reset; and the model's fault and refusal types. Each field's docstring names the rule that gives it. -/

namespace Sys2Proof.Machine

/-! ### Host Port Unit: configuration (chapter 11) -/

/-- The station states (R201). -/
inductive StationState where
  | config
  | running
  | quiesced
  | conflict
deriving DecidableEq, Repr, Inhabited

/-- The straps as sampled at device reset (R203). -/
structure Straps where
  address : Nat
  drives : Nat
  west : Bool
  east : Bool
deriving DecidableEq, Repr, Inhabited

/-- A lane mouth as WL or EL gives it: its point and the side's advertised capacity (R198). -/
structure Mouth where
  point : Point
  capacity : Nat
deriving DecidableEq, Repr, Inhabited

/-- Base fee and time rate of one class (R180). -/
structure Rate where
  fee : Nat
  time : Nat
deriving DecidableEq, Repr, Inhabited

/-- The thirteen timers of R199; the three line windows in milliseconds, robustness a count, the others in seconds. -/
structure Timers where
  presence : Nat
  robustness : Nat
  bidWindow : Nat
  awardAnswer : Nat
  locateWindow : Nat
  learntLifetime : Nat
  mountWatch : Nat
  arrivalLimit : Nat
  loadWait : Nat
  reminder : Nat
  escalation : Nat
  fetchExpiry : Nat
  ringExpiry : Nat
deriving DecidableEq, Repr, Inhabited

/-- The configuration store (R198). A positional item is absent until it is taken: its present mark is that it is there.
DV's group and point stand in the drive record (R90). -/
structure Settings where
  kc : Nat
  kt : Nat
  gp : Nat
  hp : Nat
  mp : Nat
  rp : Nat
  park : Option Point
  cell : Option Point
  west : Option Mouth
  east : Option Mouth
  rate0 : Rate
  rate1 : Rate
  rate2 : Rate
  rate3 : Rate
  hopCharge : Nat
  shelfCharge : Nat
  ringCharge : Nat
  window : Nat
  threshold : Nat
  streak : Nat
  passLimit : Nat
  high : Nat
  low : Nat
  timers : Timers
deriving DecidableEq, Repr, Inhabited

/-! ### Reel Directory (chapter 1) -/

/-- The states of a home catalogue entry (R3). -/
inductive ReelState where
  | home
  | out
  | retiring
  | retired
  | missing
deriving DecidableEq, Repr, Inhabited

/-- A home catalogue entry that is not empty (R3). -/
structure HomeEntry where
  volser : Volser
  pool : Nat
  ring : Bool
  state : ReelState
  mountId : Option ReqId
deriving DecidableEq, Repr, Inhabited

/-- A learnt entry (R14). -/
structure LearntEntry where
  volser : Volser
  holder : Nat
  slot : Nat
  ring : Bool
  pool : Nat
  carried : ReelState
  lifetime : Nat
deriving DecidableEq, Repr, Inhabited

/-- The Reel Directory: the catalogue indexed by slot (R3), the learnt table indexed by position (R16). -/
structure Directory where
  catalog : Table HomeEntry
  learnt : Table LearntEntry
deriving DecidableEq, Repr, Inhabited

/-! ### Routing records and frames (chapters 2, 3, 7 and 8) -/

/-- The purpose of a routing record (R136); `unusable` keeps a carried code outside the two of R142 (R143). -/
inductive RoutePurpose where
  | toDrive
  | toHome
  | unusable (code : Nat)
deriving DecidableEq, Repr, Inhabited

/-- A routing record (R136): one reel lying in a lane or moving under an order. -/
structure Routing where
  volser : Volser
  mountId : ReqId
  purpose : RoutePurpose
  destination : Option Nat
  ring : Bool
  pool : Nat
  hops : Nat
  counts : Option Counts
deriving DecidableEq, Repr, Inhabited

/-- The drive, or the group of drives, that may serve a request (R47). -/
inductive DriveSpec where
  | drive (g : Nat)
  | group (g : Nat)
deriving DecidableEq, Repr, Inhabited

/-- Where a reel is to be taken from (R47): a station with slot, ring and pool, or SHELF (no station). -/
structure ReelLocation where
  station : Option Nat
  slot : Nat
  ring : Bool
  pool : Nat
deriving DecidableEq, Repr, Inhabited

/-- The reasons a mount record can fail with, in the order of the table of R106. -/
inductive FailReason where
  | stale
  | missing
  | misfiled
  | transit
  | driveLost
  | thread
  | noRing
  | notOnShelf
  | fetchTimeout
  | unreadable
  | arm
  | revoked
deriving DecidableEq, Repr, Inhabited

/-- The outcome and reason of a RESULT (R65). -/
inductive ResultKind where
  | mounted
  | failed (reason : FailReason)
  | cancelled
  | tooLate
deriving DecidableEq, Repr, Inhabited

/-- The reasons of a DECLINE (R58). -/
inductive DeclineReason where
  | quiesced
  | driveTaken
  | spool
  | idInUse
  | tableFull
deriving DecidableEq, Repr, Inhabited

/-- The reasons of a NOT HERE (R46). -/
inductive NotHereReason where
  | out
  | retiring
  | retired
  | missing
  | absent
  | misfiled
  | unreadable
  | arm
  | noLane
deriving DecidableEq, Repr, Inhabited

/-- The kinds of prompt (section 8.2). -/
inductive PromptKind where
  | ring
  | fetch
  | unreadable
  | misfile
  | retire
  | remove
  | unserved
deriving DecidableEq, Repr, Inhabited

/-- The nineteen frame kinds, in the order of the table of R26. -/
inductive FrameKind where
  | hello
  | locate
  | holding
  | offer
  | bid
  | award
  | accept
  | decline
  | revoke
  | cancel
  | progress
  | result
  | fetch
  | notHere
  | deposit
  | credit
  | promptNotice
  | promptCleared
  | ack
deriving DecidableEq, Repr, Inhabited

/-- The contents of a HELLO (R37). -/
structure HelloFields where
  uptime : Nat
  freeDrives : Nat
  withdrawn : Bool
  quiesced : Bool
  westCapacity : Nat
  eastCapacity : Nat
  westOccupancy : Nat
  eastOccupancy : Nat
deriving DecidableEq, Repr, Inhabited

/-- What an OFFER and an AWARD say of a request beside its id (R46). -/
structure RequestTerms where
  volser : Volser
  write : Bool
  cls : Nat
  account : Nat
  loc : ReelLocation
deriving DecidableEq, Repr, Inhabited

/-- A frame's kind with its payload (R37, R46, R142, R168). -/
inductive Body where
  | hello (h : HelloFields)
  | locate (id : ReqId) (v : Volser)
  | holding (id : ReqId) (v : Volser) (slot pool : Nat) (ring : Bool) (state : ReelState)
  | offer (id : ReqId) (t : RequestTerms) (spec : DriveSpec)
  | bid (id : ReqId) (estimate drive : Nat)
  | award (id : ReqId) (t : RequestTerms) (drive : Nat)
  | accept (id : ReqId) (drive : Nat)
  | decline (id : ReqId) (r : DeclineReason)
  | revoke (id : ReqId)
  | cancel (id : ReqId)
  | progress (id : ReqId)
  | result (id : ReqId) (k : ResultKind) (globalDrive : Nat)
  | fetch (id : ReqId) (v : Volser) (slot destination cls : Nat)
  | notHere (id : ReqId) (v : Volser) (r : NotHereReason)
  | deposit (r : Routing)
  | credit (lane : Side) (count : Nat)
  | promptNotice (number : Nat) (k : PromptKind) (v : Volser)
  | promptCleared (number : Nat)
  | ack
deriving DecidableEq, Repr, Inhabited

/-! ### Line Unit (chapter 2) -/

/-- A frame in the transmit queue, or waiting to enter it (R35). `dst` is absent for ALL. `begun` says that its first
attempt has begun, which fixes `seq` and the body (R30, R33). `resend` marks a DEPOSIT offered again on a restart and still
counted among the undelivered deposits (R150). -/
structure TxFrame where
  dst : Option Nat
  body : Body
  begun : Bool
  seq : Nat
  resend : Bool
deriving DecidableEq, Repr, Inhabited

/-- Where the transmission of the frame in service stands (R30, R31). -/
inductive TxPhase where
  /-- no attempt is on the line: none begun yet, or the next one is awaited -/
  | idle
  /-- an attempt is being sent and its echo compared -/
  | sending
  /-- a unicast frame has been sent and waits for its ACK -/
  | ackWait
deriving DecidableEq, Repr, Inhabited

/-- A peer's presence state (R39). -/
inductive Presence where
  | absent
  | up
  | down
deriving DecidableEq, Repr, Inhabited

/-- A peer table entry (R39). -/
structure Peer where
  presence : Presence
  silence : Nat
  hello : Option HelloFields
deriving DecidableEq, Repr, Inhabited

/-- The Line Unit (chapter 2). `waiting` holds the frames of every block that wait for a place, in the order offered (R35).
`presence` is the presence timer's seconds, absent while it is stopped (R38). `sent` is the model's record of the bytes put on
the line since the reset (assumption 8). -/
structure LineUnit where
  queue : List TxFrame
  waiting : List TxFrame
  dedupe : Table Nat
  peers : Table Peer
  seqCounter : Nat
  phase : TxPhase
  attempt : Nat
  retries : Nat
  backoff : Nat
  presence : Option Nat
  sent : List (List Byte)
deriving DecidableEq, Repr, Inhabited

/-! ### Negotiation Unit (chapter 3) -/

/-- The states of an origin record (R47). -/
inductive OriginState where
  | locating
  | offered
  | awarding
  | awarded
  | cancelling
deriving DecidableEq, Repr, Inhabited

/-- The reasons a request can end FAILED with (R49). -/
inductive EndReason where
  | inUse
  | retired
  | missing
  | unserved
  | timeout
  | peerReset
  | awardee (r : FailReason)
deriving DecidableEq, Repr, Inhabited

/-- How a request ends (R49): MOUNTED with the serving global drive and the note CANCEL TOO LATE or none. -/
inductive Ending where
  | mounted (globalDrive : Nat) (cancelTooLate : Bool)
  | failed (r : EndReason)
  | cancelled
deriving DecidableEq, Repr, Inhabited

/-- A bid list entry (R47). -/
structure Bid where
  station : Nat
  estimate : Nat
  drive : Nat
deriving DecidableEq, Repr, Inhabited

/-- An origin record (R47). The three windows hold their configured time while they run; `watch` holds the seconds left of
the mount watch (R64). Once the request has ended, `ended` holds its ending and `noticeWaits` and `promptWaits` say what keeps
the record in the table (R49). -/
structure OriginRec where
  id : ReqId
  volser : Volser
  spec : DriveSpec
  write : Bool
  cls : Nat
  account : Nat
  tag : Byte
  state : OriginState
  loc : Option ReelLocation
  locateAttempts : Nat
  round : Nat
  awardsMade : Nat
  staleRetries : Nat
  bids : List Bid
  awardee : Option Nat
  locateWindow : Option Nat
  bidWindow : Option Nat
  awardAnswer : Option Nat
  watch : Option Nat
  ended : Option Ending
  noticeWaits : Bool
  promptWaits : Bool
deriving DecidableEq, Repr, Inhabited

/-- A bid record (R55); the expiry is the time set when it was made, in milliseconds. -/
structure BidRec where
  id : ReqId
  expiry : Nat
deriving DecidableEq, Repr, Inhabited

/-! ### Handling Sequencer: the forms of an order (chapter 6) -/

/-- A location at this station (R113). -/
inductive Loc where
  | slot (n : Nat)
  | drive (d : Nat)
  | mouth (side : Side)
  | cell
deriving DecidableEq, Repr, Inhabited

/-- The purposes of an order (R112). -/
inductive Purpose where
  | mountLeg
  | returnLeg
  | relay
  | cell
  | audit
deriving DecidableEq, Repr, Inhabited

/-- The forms of an order (R112). -/
inductive Form where
  | pick
  | place
  | readOnly
deriving DecidableEq, Repr, Inhabited

/-- The mechanism steps an issue asks for (R112). -/
inductive Phase where
  | moveFrom
  | grip
  | read
  | moveTo
  | place
deriving DecidableEq, Repr, Inhabited

/-- The blocks that queue orders (R112). -/
inductive Block where
  | mount
  | negotiation
  | lane
  | wear
  | audit
deriving DecidableEq, Repr, Inhabited

/-- The prompt that a place into the cell calls for when it completes (R122, R126). -/
inductive CellUse where
  | none
  | ring
  | remove
  | wrongLabel (read : Volser)
  | slotOccupied
  | unreadable
  | retire
deriving DecidableEq, Repr, Inhabited

/-- An arm order (R112). The spec's one cell position is held as two, of the from- and the to-location, since a leg may run
from the cell to the cell (assumption 14). `cellUse` is the prompt its place into the cell calls for (R122); `routing` is the
routing record that travels with the reel (R136). -/
structure ArmOrder where
  number : Nat
  purpose : Purpose
  form : Form
  phases : List Phase
  src : Loc
  dst : Loc
  srcPos : Option Nat
  dstPos : Option Nat
  cls : Option Nat
  mountId : Option ReqId
  volser : Option Volser
  estimate : Nat
  heldCredit : Bool
  waitingCell : Bool
  laneRetry : Bool
  queuedBy : Block
  faultTaken : Bool
  repeatUsed : Bool
  cellUse : CellUse
  routing : Option Routing
deriving DecidableEq, Repr, Inhabited

/-- The stages of a mount record (R96). -/
inductive Stage where
  | sourcing
  | toDrive
  | ring
  | loading
  | mounted
  | returning
deriving DecidableEq, Repr, Inhabited

/-- What waits for room in the order queue (R114): an order as offered, with the prompt whose position it takes over and the
stage its mount record enters when it is taken; the pick of an inbound lane's head, decided when it is taken (R144, assumption
12); or the local sourcing of a mount (R97, assumption 11). -/
inductive WaitingOffer where
  | order (o : ArmOrder) (prompt : Option Nat) (stage : Option Stage)
  | laneHead (side : Side)
  | sourceLocal (id : ReqId)
deriving DecidableEq, Repr, Inhabited

/-- The arm states (R116). -/
inductive ArmState where
  | idle
  | busy
  | holding
  | fault
deriving DecidableEq, Repr, Inhabited

/-- The rotation hint (R128). -/
structure Hint where
  rotation : Nat
  reverse : Bool
deriving DecidableEq, Repr, Inhabited

/-- The audit cursor (R131). -/
structure AuditCursor where
  running : Bool
  first : Nat
  last : Nat
  next : Nat
  read : Nat
  skipped : Nat
  dropped : Nat
  posted : Nat
deriving DecidableEq, Repr, Inhabited

/-- What the part sends on the arm port (section 6.2). -/
inductive ArmMessage where
  | order (number : Nat) (phases : List Phase) (src : Point) (srcPos : Option Nat) (dst : Point) (dstPos : Option Nat)
  | repeatRead (number : Nat)
deriving DecidableEq, Repr, Inhabited

/-! ### Mount Unit (chapter 5) -/

/-- The drive states (R90). -/
inductive DriveState where
  | free
  | allocated
  | loading
  | mounted
  | emptying
  | offline
deriving DecidableEq, Repr, Inhabited

/-- Whether a reel lies on a drive (R90). -/
inductive Aboard where
  | none
  | loose
  | threaded
deriving DecidableEq, Repr, Inhabited

/-- A drive record (R90). Group and position are absent ("undefined") until a DV item. -/
structure DriveRec where
  state : DriveState
  variedOff : Bool
  group : Option Nat
  position : Option Point
  mountId : Option ReqId
  aboard : Aboard
deriving DecidableEq, Repr, Inhabited

/-- The ring state of a mount record (R95). -/
inductive RingState where
  | absent
  | present
  | inserted
deriving DecidableEq, Repr, Inhabited

/-- The result sent field of a mount record (R95). -/
inductive ResultSent where
  | none
  | mounted
  | failed
  | cancelled
deriving DecidableEq, Repr, Inhabited

/-- A mount record (R95). `home` has no station for SHELF. `arrivalLimit` and `loadWait` hold the seconds left while they
run (R98, R102). `reelLeft` is the model's own: the record's reel lies on its drive, which the record does not hold (assumption 17). -/
structure MountRec where
  id : ReqId
  originator : Nat
  volser : Volser
  pool : Nat
  account : Nat
  cls : Nat
  write : Bool
  drive : Nat
  driveHeld : Bool
  reelLeft : Bool
  home : Option Nat
  homeSlot : Nat
  hops : Nat
  ring : RingState
  manual : Bool
  stage : Stage
  turningBack : Bool
  cancelPending : Bool
  failure : Option FailReason
  resultSent : ResultSent
  reachedMounted : Bool
  readyTime : Option Nat
  unloadTime : Option Nat
  counts : Option Counts
  operatorActions : Nat
  reserved : Option Nat
  arrivalLimit : Option Nat
  loadWait : Option Nat
deriving DecidableEq, Repr, Inhabited

/-- LOAD, as sent on the drive link (R89). -/
structure LoadMessage where
  drive : Nat
  volser : Volser
  write : Bool
deriving DecidableEq, Repr, Inhabited

/-- The drive events a DRIVE PROTOCOL notice can carry (R89, R93). -/
inductive DriveEvent where
  | ready
  | loadFailed
  | unloaded
  | offline
  | online
  | destOccupied
deriving DecidableEq, Repr, Inhabited

/-! ### Lane Unit (chapter 7) -/

/-- The outbound states of a side (R135). -/
inductive LaneState where
  | notFitted
  | agreeing
  | isOpen
  | held
  | down
deriving DecidableEq, Repr, Inhabited

/-- A side record (R135). `holders` lists the numbers of the orders that hold a reserved credit, in the order they were
granted it: reserved credit is their count (assumption 9). -/
structure SideRec where
  outbound : LaneState
  hold : Bool
  agreed : Nat
  available : Nat
  holders : List Nat
  requests : List Nat
  undelivered : List Routing
  unreported : Nat
  inbound : List Routing
  pickQueued : Option Nat
  downFromAgreeing : Bool
deriving DecidableEq, Repr, Inhabited

/-! ### Prompt Unit (chapter 8) -/

/-- Who a cell position or a place among the cell waiters belongs to (R153, R154). -/
inductive Holder where
  | prompt (number : Nat)
  | order (number : Nat)
deriving DecidableEq, Repr, Inhabited

/-- A cell position (R153). -/
inductive CellPos where
  | empty
  | reserved (h : Holder)
  | holding (h : Holder) (v : Option Volser)
deriving DecidableEq, Repr, Inhabited

/-- The stages of a prompt (R155). -/
inductive PromptStage where
  | waitingCell
  | queued
  | reminded
  | escalated
deriving DecidableEq, Repr, Inhabited

/-- The answer held by a prompt (R155). -/
inductive Answered where
  | none
  | done
  | cannot
deriving DecidableEq, Repr, Inhabited

/-- The notice state of a prompt (R155). -/
inductive NoticeState where
  | none
  | offered
  | sent
deriving DecidableEq, Repr, Inhabited

/-- The cause of a MISFILE prompt (R155). -/
inductive MisfileCause where
  | wrongLabel
  | slotOccupied
deriving DecidableEq, Repr, Inhabited

/-- A prompt (R155); its priority is its kind's. -/
structure Prompt where
  number : Nat
  kind : PromptKind
  volser : Volser
  cause : Option MisfileCause
  ringWanted : Bool
  cellPos : Option Nat
  slot : Option Nat
  drive : Option Nat
  mountId : Option ReqId
  requestId : Option ReqId
  posted : Nat
  timerStart : Option Nat
  stage : PromptStage
  answer : Answered
  notice : NoticeState
deriving DecidableEq, Repr, Inhabited

/-- An entry of the remote prompt list (R169). -/
structure RemotePrompt where
  station : Nat
  number : Nat
  kind : PromptKind
  volser : Volser
deriving DecidableEq, Repr, Inhabited

/-! ### Wear Monitor and Accounting Unit (chapters 9 and 10) -/

/-- The retire stages (R171). -/
inductive RetireStage where
  | none
  | due
  | ordered
  | prompted
deriving DecidableEq, Repr, Inhabited

/-- The retire causes (R171). -/
inductive RetireCause where
  | hardError
  | streak
  | passLimit
deriving DecidableEq, Repr, Inhabited

/-- A wear record (R171). -/
structure WearRec where
  lifetime : Nat
  passes : Nat
  blocks : Nat
  recoveries : Nat
  streak : Nat
  stage : RetireStage
  cause : Option RetireCause
deriving DecidableEq, Repr, Inhabited

/-- A hand-over of a returned slot from the Directory to the Wear Monitor (R8, R172). -/
structure Handover where
  slot : Nat
  volser : Volser
  counts : Option Counts
deriving DecidableEq, Repr, Inhabited

/-- The events of a WEAR notice, with what only that event carries (R179). -/
inductive WearEvent where
  | suspect (blocks recoveries : Nat)
  | retiring
  | abandonedEmpty
  | abandonedArm
  | retired
deriving DecidableEq, Repr, Inhabited

/-- The outcome of a mount record at closure (R110). -/
inductive ClosedOutcome where
  | dismounted
  | cancelled
  | failed
deriving DecidableEq, Repr, Inhabited

/-- An accounting record (R187). -/
structure AcctRecord where
  sequence : Nat
  mountId : ReqId
  volser : Volser
  pool : Nat
  account : Nat
  cls : Nat
  globalDrive : Nat
  outcome : ClosedOutcome
  reason : Option FailReason
  hops : Nat
  operatorActions : Nat
  manual : Bool
  ringInserted : Bool
  saturated : Bool
  readyTime : Option Nat
  unloadTime : Option Nat
  counts : Option Counts
  charge : Nat
deriving DecidableEq, Repr, Inhabited

/-- An account table entry (R183). -/
structure Account where
  mounts : Nat
  cancels : Nat
  operatorActions : Nat
  charge : Nat
  saturated : Bool
  openMounts : Nat
deriving DecidableEq, Repr, Inhabited

/-- The spool states (R189). -/
inductive SpoolState where
  | normal
  | drainWanted
  | withdrawn
deriving DecidableEq, Repr, Inhabited

/-! ### Host records (chapter 11) -/

/-- The findings of an audit read (R132). -/
inductive Finding where
  | isEmpty
  | recovered
  | wrongReel
  | unreadable
  | unrecordedReel
  | notRead
deriving DecidableEq, Repr, Inhabited

/-- Which LANE OVERRUN (R140, R143). -/
inductive OverrunWord where
  | kept
  | dropped
  | undelivered
deriving DecidableEq, Repr, Inhabited

/-- The notices of the table of R197, with their contents. -/
inductive Notice where
  | mountResult (id : ReqId) (tag : Byte) (v : Volser) (e : Ending)
  | driveProtocol (drive : Nat) (event : DriveEvent) (state : Option DriveState)
  | armFault (number : Nat) (purpose : Purpose) (form : Form) (src dst : Loc) (mountId : Option ReqId) (result : ArmResult)
      (second : Bool)
  | armProtocol (number : Nat) (result : ArmResult)
  | auditResult (slot : Nat) (finding : Finding) (entry : Option (Volser × ReelState)) (read : Option Volser)
  | auditDone (first last read skipped dropped posted : Nat)
  | laneOverrun (side : Side) (v : Volser) (id : ReqId) (hops records : Nat) (word : OverrunWord)
  | laneEmpty (side : Side) (v : Volser) (id : ReqId) (hops : Nat) (arm : Bool)
  | wear (slot : Nat) (v : Volser) (event : WearEvent) (cause : Option RetireCause) (lifetime streak : Nat)
  | drainWanted (state : SpoolState) (held live : Nat)
  | addressConflict (address : Nat)
deriving DecidableEq, Repr, Inhabited

/-- What VARIED and STATUS STATION show of one drive (R94, R202). -/
structure DriveStatus where
  state : DriveState
  variedOff : Bool
  mountId : Option ReqId
deriving DecidableEq, Repr, Inhabited

/-- What LANE VARIED and STATUS STATION show of one side (R151, R202). -/
structure SideStatus where
  outbound : LaneState
  hold : Bool
  agreed : Nat
  available : Nat
  reserved : Nat
  occupancy : Nat
deriving DecidableEq, Repr, Inhabited

/-- The STATION section of STATUS (R202). `positions` holds the configured drive positions, shown in CONFIG (assumption
61). -/
structure StationStatus where
  state : StationState
  straps : Straps
  clock : Nat
  spoolState : SpoolState
  held : Nat
  live : Nat
  arm : ArmState
  work : Nat
  reference : Point
  hint : Hint
  doorOpen : Bool
  drives : List DriveStatus
  positions : List (Option Point)
  west : SideStatus
  east : SideStatus
  origins : Nat
  prompts : Nat
deriving DecidableEq, Repr, Inhabited

/-- The answers of the twenty commands (section 11.2), with their contents. -/
inductive Answer where
  | stateRefused
  | badField (first : Option Nat)
  | taken
  | clamped (stored : List Nat)
  | unknownItem
  | startTaken (straps : Straps)
  | incomplete (pk cl : Bool) (drives : List Nat) (wl el : Bool)
  | quiesceTaken (mounts origins : Nat)
  | resumeTaken
  | statusStation (st : StationStatus)
  | statusPeers (peers : List Peer)
  | statusRemote (entries : List RemotePrompt)
  | started (id : ReqId)
  | duplicate
  | full
  | cancelTaken
  | unknown
  | cancelBusy
  | foundHome (slot : Nat) (e : HomeEntry)
  | foundLearnt (e : LearntEntry)
  | absentSlot (slot : Nat)
  | absentVolser (v : Volser)
  | newEntry (slot : Nat) (movedFrom : Option Nat)
  | replaced (slot : Nat) (old : Volser) (movedFrom : Option Nat)
  | deletedHome (slot : Nat) (e : HomeEntry)
  | deletedLearnt (e : LearntEntry)
  | cleared (count : Nat)
  | dirBusy (slot : Nat)
  | clearBusy (slot count : Nat)
  | varied (drive : DriveStatus)
  | laneVaried (side : SideStatus) (requests : Nat)
  | auditStarted (first last : Nat)
  | auditBusy
  | resumed (number : Option Nat)
  | resumeBusy
  | drained (moved held : Nat)
  | account (n : Nat) (e : Account)
  | accountCleared (n : Nat) (e : Account)
  | accountsCleared (count : Nat)
deriving DecidableEq, Repr, Inhabited

/-- A report record (R195): an answer with its command's tag, a notice, or an accounting record with its DRAIN's tag. A
notice's tag is 0 whatever the notice, and `Report.tag` gives it. -/
inductive Report where
  | answer (tag : Byte) (a : Answer)
  | notice (n : Notice)
  | accounting (tag : Byte) (r : AcctRecord)
deriving DecidableEq, Repr, Inhabited

/-- What the record port last showed a host that wrote (R195). -/
inductive WriteShake where
  | nothing
  | taken
  | rejected
deriving DecidableEq, Repr, Inhabited

/-- What the record port last showed a host that read (R195). -/
inductive ReadShake where
  | nothing
  | isEmpty
  | record (r : Report)
deriving DecidableEq, Repr, Inhabited

/-- The Host Port Unit (chapter 11). `pointer` is the place in R197's order of the requester last granted, 0 standing before
the command taker. `lastWrite` and `lastRead` are the model's record of a port output (assumption 8). -/
structure HostPort where
  state : StationState
  straps : Straps
  clock : Nat
  clockRuns : Bool
  settings : Settings
  commands : List CmdRec
  reports : List Report
  pointer : Nat
  notices : List Notice
  lastWrite : WriteShake
  lastRead : ReadShake
deriving DecidableEq, Repr, Inhabited

/-- The Negotiation Unit (chapter 3). -/
structure Negotiation where
  origins : List OriginRec
  bids : List BidRec
  seqCounter : Nat
  notices : List Notice
deriving DecidableEq, Repr, Inhabited

/-- The Mount Unit (chapter 5). `sent` is the model's record of the LOADs sent (assumption 8). -/
structure MountUnit where
  drives : List DriveRec
  mounts : List MountRec
  notices : List Notice
  sent : List LoadMessage
deriving DecidableEq, Repr, Inhabited

/-- The Handling Sequencer (chapter 6). `ref` is A as the last issue set it, absent when none has been made (R83).
`repeatSent` says that the last message for the order in the arm position was REPEAT READ (R118). `sent` is the model's record
of the arm port's messages (assumption 8). -/
structure Sequencer where
  queue : List ArmOrder
  waiting : List WaitingOffer
  arm : ArmState
  inArm : Option ArmOrder
  repeatSent : Bool
  counter : Nat
  ref : Option Point
  hint : Hint
  audit : AuditCursor
  notices : List Notice
  sent : List ArmMessage
deriving DecidableEq, Repr, Inhabited

/-- The Lane Unit (chapter 7). -/
structure LaneUnit where
  west : SideRec
  east : SideRec
  notices : List Notice
deriving DecidableEq, Repr, Inhabited

/-- The Prompt Unit (chapter 8). -/
structure PromptUnit where
  cells : List CellPos
  waiters : List Holder
  prompts : List Prompt
  postings : List Prompt
  remote : List RemotePrompt
  counter : Nat
  shown : Option Nat
  browsing : Bool
  unconfirmed : Bool
  doorOpen : Bool
deriving DecidableEq, Repr, Inhabited

/-- The Wear Monitor (chapter 9), with the hand-overs it has not yet taken. -/
structure WearMonitor where
  records : Table WearRec
  handovers : List Handover
  notices : List Notice
deriving DecidableEq, Repr, Inhabited

/-- The Accounting Unit (chapter 10). -/
structure Accounting where
  accounts : Table Account
  spool : List AcctRecord
  spoolState : SpoolState
  counter : Nat
  notices : List Notice
deriving DecidableEq, Repr, Inhabited

/-- The input levels that the part reads at a device reset, and the reset pin (R161, R203, R204). -/
structure Pins where
  straps : StrapPins
  doorOpen : Bool
  resetHeld : Bool
deriving DecidableEq, Repr, Inhabited

/-- The state of the part, and the queue of commands that wait for it. -/
structure State where
  pending : List Instr
  pins : Pins
  host : HostPort
  dir : Directory
  line : LineUnit
  neg : Negotiation
  mnt : MountUnit
  seq : Sequencer
  lane : LaneUnit
  prm : PromptUnit
  wear : WearMonitor
  acct : Accounting
deriving DecidableEq, Repr

/-- The model's stop reasons. It has none: the spec gives every command of the table an effect, and what it calls a fault
(R117) is a state the part goes on from. Nothing raises one; safe. -/
inductive Fault where
deriving DecidableEq, Repr

/-- The model's refusals. -/
inductive Refusal where
  /-- Raised by an arm of exec whose command has no meaning yet, naming it as the table spells it; safe. -/
  | notModelled (mnemonic : String)
deriving DecidableEq, Repr

/-! ### Device reset (R204 and the reset rule of each chapter) -/

/-- The straps as a reset samples them: four address straps, a drive count of 9-15 is 8, a west strap at address 0 and an east
strap at address 15 are absent (R203). -/
def Straps.sample (p : StrapPins) : Straps where
  address := p.address % 16
  drives := min p.drives 8
  west := p.west && p.address % 16 != 0
  east := p.east && p.address % 16 != 15

/-- The timer defaults of R199. -/
def Timers.default : Timers where
  presence := 2
  robustness := 3
  bidWindow := 300
  awardAnswer := 500
  locateWindow := 300
  learntLifetime := 600
  mountWatch := 300
  arrivalLimit := 600
  loadWait := 60
  reminder := 120
  escalation := 300
  fetchExpiry := 1800
  ringExpiry := 900

/-- The configuration store after device reset (R198). -/
def Settings.default : Settings where
  kc := 1
  kt := 1
  gp := 0
  hp := 0
  mp := 0
  rp := 0
  park := none
  cell := none
  west := none
  east := none
  rate0 := ⟨0, 0⟩
  rate1 := ⟨0, 0⟩
  rate2 := ⟨0, 0⟩
  rate3 := ⟨0, 0⟩
  hopCharge := 0
  shelfCharge := 0
  ringCharge := 0
  window := 4
  threshold := 25
  streak := 2
  passLimit := 0
  high := 384
  low := 128
  timers := Timers.default

/-- A drive record after device reset (R90). -/
def DriveRec.fresh : DriveRec := ⟨.free, false, none, none, none, .none⟩

/-- A side record after device reset (R135). -/
def SideRec.fresh (fitted : Bool) : SideRec where
  outbound := if fitted then .agreeing else .notFitted
  hold := false
  agreed := 0
  available := 0
  holders := []
  requests := []
  undelivered := []
  unreported := 0
  inbound := []
  pickQueued := none
  downFromAgreeing := false

/-- A wear record after device reset or DIR WRITE (R171). -/
def WearRec.clear : WearRec := ⟨0, 0, 0, 0, 0, .none, none⟩

/-- An account after device reset (R183). -/
def Account.zero : Account := ⟨0, 0, 0, 0, false, 0⟩

/-- A peer table entry after device reset (R44). -/
def Peer.unknown : Peer := ⟨.absent, 0, none⟩

/-- The Host Port Unit after device reset (R195, R204). -/
def HostPort.reset (p : Pins) : HostPort where
  state := .config
  straps := Straps.sample p.straps
  clock := 0
  clockRuns := false
  settings := Settings.default
  commands := []
  reports := []
  pointer := 0
  notices := []
  lastWrite := .nothing
  lastRead := .nothing

/-- The Reel Directory after device reset (R24). -/
def Directory.reset : Directory := ⟨[], []⟩

/-- The Line Unit after device reset (R44). -/
def LineUnit.reset : LineUnit := ⟨[], [], [], [], 0, .idle, 0, 0, 0, none, []⟩

/-- The Negotiation Unit after device reset (R75). -/
def Negotiation.reset : Negotiation := ⟨[], [], 0, []⟩

/-- The Mount Unit after device reset (R90, R111). -/
def MountUnit.reset (p : Pins) : MountUnit :=
  ⟨List.replicate (Straps.sample p.straps).drives DriveRec.fresh, [], [], []⟩

/-- The Handling Sequencer after device reset (R88, R134). The audit cursor's first, last and next slot, for which R134 gives no value, are 0
(assumption 75). -/
def Sequencer.reset : Sequencer :=
  ⟨[], [], .idle, none, false, 0, none, ⟨0, false⟩, ⟨false, 0, 0, 0, 0, 0, 0, 0⟩, [], []⟩

/-- The Lane Unit after device reset (R135, R152). -/
def LaneUnit.reset (p : Pins) : LaneUnit :=
  ⟨SideRec.fresh (Straps.sample p.straps).west, SideRec.fresh (Straps.sample p.straps).east, []⟩

/-- The Prompt Unit after device reset (R170). -/
def PromptUnit.reset (p : Pins) : PromptUnit :=
  ⟨[.empty, .empty, .empty, .empty], [], [], [], [], 0, none, false, false, p.doorOpen⟩

/-- The Wear Monitor after device reset (R171). -/
def WearMonitor.reset : WearMonitor := ⟨[], [], []⟩

/-- The Accounting Unit after device reset (R194). -/
def Accounting.reset : Accounting := ⟨[], [], .normal, 0, []⟩

/-- The whole part after a device reset that reads the given pins (R204), with the given commands still waiting for it. -/
def State.resetWith (p : Pins) (pending : List Instr) : State where
  pending := pending
  pins := p
  host := HostPort.reset p
  dir := Directory.reset
  line := LineUnit.reset
  neg := Negotiation.reset
  mnt := MountUnit.reset p
  seq := Sequencer.reset
  lane := LaneUnit.reset p
  prm := PromptUnit.reset p
  wear := WearMonitor.reset
  acct := Accounting.reset

/-- The input levels the model starts with: all straps 0, the door closed, the reset pin released (DESIGN CHOICE, assumption
6: the spec names no board). -/
def Pins.initial : Pins := ⟨⟨0, 0, false, false⟩, false, false⟩

/-- The machine right after reset, with no command waiting. -/
def State.reset : State := State.resetWith Pins.initial []

end Sys2Proof.Machine
end

