-- ==== Sys2Proof/Machine/Operands.lean ====
section
/-! DEFINITION. The operand forms: numbers, volsers, slots and enumerated codes as the outside formats carry them (sections
3.1, 7.4 and 11.7), grid points and travel (chapter 4), and the arithmetic words of 00_scope.md section 5. -/

namespace Sys2Proof

/-! ### Volsers and sides -/

/-- A number's low byte. -/
def byteOf (n : Nat) : Byte := BitVec.ofNat 8 n

/-- The six bytes that carry a volser (R1). -/
def Volser.bytes (v : Volser) : List Byte :=
  [byteOf v.s1, byteOf v.s2, byteOf v.s3, byteOf v.s4, byteOf v.s5, byteOf v.s6]

/-- Each of the six values lies in 0-35 (R1). -/
def Volser.wellFormed (v : Volser) : Bool :=
  v.s1 ≤ 35 && v.s2 ≤ 35 && v.s3 ≤ 35 && v.s4 ≤ 35 && v.s5 ≤ 35 && v.s6 ≤ 35

/-- The first check symbol of a label: the sum of the six, modulo 37 (R127). -/
def Volser.check1 (v : Volser) : Nat := (v.s1 + v.s2 + v.s3 + v.s4 + v.s5 + v.s6) % 37

/-- The second check symbol: the sum weighted by position, modulo 37 (R127). -/
def Volser.check2 (v : Volser) : Nat := (v.s1 + 2 * v.s2 + 3 * v.s3 + 4 * v.s4 + 5 * v.s5 + 6 * v.s6) % 37

/-- A side's code: WEST or WESTBOUND 1, EAST or EASTBOUND 2 (R142, section 11.7). -/
def Side.code : Side → Nat
  | .west => 1
  | .east => 2

def Side.ofCode : Nat → Option Side
  | 1 => some .west
  | 2 => some .east
  | _ => none

/-- The facing side. -/
def Side.opposite : Side → Side
  | .west => .east
  | .east => .west

end Sys2Proof

namespace Sys2Proof.Machine

/-! ### Arithmetic words -/

/-- Wrapping increment: after m - 1 comes 0. -/
def wrapSucc (m n : Nat) : Nat := (n + 1) % m

/-- Saturating addition: the sum stops at `top`. -/
def satAdd (top a b : Nat) : Nat := min top (a + b)

/-- A quantity set to the nearer end of lo-hi when it lies outside. -/
def clampTo (lo hi n : Nat) : Nat := max lo (min hi n)

/-- The number `n`, or the next above it, wrapping at 256, that `used` does not hold (R48, R114, R156). The first argument
bounds the search; 256 tries cover every number. -/
def freshFrom : Nat → List Nat → Nat → Nat
  | 0, _, n => n
  | k + 1, used, n => if n ∈ used then freshFrom k used (wrapSucc 256 n) else n

/-- The number given from a 0-255 counter (R48, R114, R156). -/
def freshNumber (used : List Nat) (counter : Nat) : Nat := freshFrom 256 used counter

/-! ### Numbers as bytes, most significant byte first (section 11.7) -/

/-- A two-byte number. -/
def num16 (a b : Byte) : Nat := a.toNat * 256 + b.toNat

/-- A four-byte number. -/
def num32 (a b c d : Byte) : Nat := ((a.toNat * 256 + b.toNat) * 256 + c.toNat) * 256 + d.toNat

def bytes16 (n : Nat) : List Byte := [byteOf (n / 256), byteOf n]

def bytes24 (n : Nat) : List Byte := [byteOf (n / 65536), byteOf (n / 256), byteOf n]

def bytes32 (n : Nat) : List Byte := [byteOf (n / 16777216), byteOf (n / 65536), byteOf (n / 256), byteOf n]

/-! ### Volsers and slots -/

/-- The volser that six bytes carry (R1). -/
def volserOf (a b c d e f : Byte) : Volser := ⟨a.toNat, b.toNat, c.toNat, d.toNat, e.toNat, f.toNat⟩

/-- A slot field is well formed when it lies in 0-4,095 (R2). -/
def slotFits (n : Nat) : Bool := n < Config.slots

/-- A slot's grid point (R2). -/
def slotPoint (n : Nat) : Point := ⟨n / 64, n % 64⟩

/-! ### Enumerated codes -/

/-- A yes-or-no field: 1 for set or present, 0 for clear or absent. -/
def flagByte (b : Bool) : Byte := if b then 1 else 0

/-- The value of a yes-or-no field; a code other than 0 and 1 is outside the field's range. -/
def flagOf (b : Byte) : Option Bool :=
  if b = 1 then some true else if b = 0 then some false else none

/-- HOLDING state and DIR CLEAR state codes (R46, section 11.7). -/
def ReelState.code : ReelState → Nat
  | .home => 1
  | .out => 2
  | .retiring => 3
  | .retired => 4
  | .missing => 5

def ReelState.ofCode : Nat → Option ReelState
  | 1 => some .home
  | 2 => some .out
  | 3 => some .retiring
  | 4 => some .retired
  | 5 => some .missing
  | _ => none

/-- The reason codes of RESULT and of the accounting record: 1-12 in the order of the table of R106. -/
def FailReason.code : FailReason → Nat
  | .stale => 1
  | .missing => 2
  | .misfiled => 3
  | .transit => 4
  | .driveLost => 5
  | .thread => 6
  | .noRing => 7
  | .notOnShelf => 8
  | .fetchTimeout => 9
  | .unreadable => 10
  | .arm => 11
  | .revoked => 12

def FailReason.ofCode : Nat → Option FailReason
  | 1 => some .stale
  | 2 => some .missing
  | 3 => some .misfiled
  | 4 => some .transit
  | 5 => some .driveLost
  | 6 => some .thread
  | 7 => some .noRing
  | 8 => some .notOnShelf
  | 9 => some .fetchTimeout
  | 10 => some .unreadable
  | 11 => some .arm
  | 12 => some .revoked
  | _ => none

/-- RESULT outcome and reason codes (R46). -/
def ResultKind.codes : ResultKind → Nat × Nat
  | .mounted => (1, 0)
  | .failed r => (2, r.code)
  | .cancelled => (3, 0)
  | .tooLate => (4, 0)

def ResultKind.ofCodes (outcome reason : Nat) : Option ResultKind :=
  if outcome = 2 then (FailReason.ofCode reason).map ResultKind.failed
  else if reason ≠ 0 then none
  else match outcome with
    | 1 => some .mounted
    | 3 => some .cancelled
    | 4 => some .tooLate
    | _ => none

/-- DECLINE reason codes (R46). -/
def DeclineReason.code : DeclineReason → Nat
  | .quiesced => 1
  | .driveTaken => 2
  | .spool => 3
  | .idInUse => 4
  | .tableFull => 5

def DeclineReason.ofCode : Nat → Option DeclineReason
  | 1 => some .quiesced
  | 2 => some .driveTaken
  | 3 => some .spool
  | 4 => some .idInUse
  | 5 => some .tableFull
  | _ => none

/-- NOT HERE reason codes (R46). -/
def NotHereReason.code : NotHereReason → Nat
  | .out => 1
  | .retiring => 2
  | .retired => 3
  | .missing => 4
  | .absent => 5
  | .misfiled => 6
  | .unreadable => 7
  | .arm => 8
  | .noLane => 9

def NotHereReason.ofCode : Nat → Option NotHereReason
  | 1 => some .out
  | 2 => some .retiring
  | 3 => some .retired
  | 4 => some .missing
  | 5 => some .absent
  | 6 => some .misfiled
  | 7 => some .unreadable
  | 8 => some .arm
  | 9 => some .noLane
  | _ => none

/-- Prompt kind codes (R168). -/
def PromptKind.code : PromptKind → Nat
  | .ring => 1
  | .fetch => 2
  | .unreadable => 3
  | .misfile => 4
  | .retire => 5
  | .remove => 6
  | .unserved => 7

def PromptKind.ofCode : Nat → Option PromptKind
  | 1 => some .ring
  | 2 => some .fetch
  | 3 => some .unreadable
  | 4 => some .misfile
  | 5 => some .retire
  | 6 => some .remove
  | 7 => some .unserved
  | _ => none

/-! ### Grid points and travel (chapter 4) -/

/-- A difference taken without sign. -/
def absDiff (a b : Nat) : Nat := (a - b) + (b - a)

/-- The travel time between two grid points: the slower axis (R77). -/
def travel (kc kt : Nat) (p q : Point) : Nat := max (absDiff p.col q.col * kc) (absDiff p.tier q.tier * kt)

/-! ### Labels (section 6.5) -/

/-- The k-th symbol of the candidate with the given rotation and direction (R128). -/
def candidateSymbol (reading : List Nat) (h : Hint) (k : Nat) : Nat :=
  reading.getD (if h.reverse then (h.rotation + 8 - k) % 8 else (h.rotation + k) % 8) 0

/-- The first six symbols of a candidate. -/
def candidateVolser (reading : List Nat) (h : Hint) : Volser :=
  ⟨candidateSymbol reading h 0, candidateSymbol reading h 1, candidateSymbol reading h 2, candidateSymbol reading h 3,
    candidateSymbol reading h 4, candidateSymbol reading h 5⟩

/-- A candidate is valid when its six symbols lie in 0-35 and both check symbols agree (R128). -/
def candidateValid (reading : List Nat) (h : Hint) : Bool :=
  (candidateVolser reading h).wellFormed
    && candidateSymbol reading h 6 == (candidateVolser reading h).check1
    && candidateSymbol reading h 7 == (candidateVolser reading h).check2

/-- The sixteen candidates in search order: the eight rotations from the hint in its direction, then in the other (R128). -/
def candidates (h : Hint) : List Hint :=
  ([0, 1, 2, 3, 4, 5, 6, 7].map fun i => ⟨(h.rotation + i) % 8, h.reverse⟩)
    ++ ([0, 1, 2, 3, 4, 5, 6, 7].map fun i => ⟨(h.rotation + i) % 8, !h.reverse⟩)

/-- The outcome of a label search (R129), with the candidate that becomes the hint where one does. -/
inductive LabelOutcome where
  | found (h : Hint)
  | mismatch (read : Volser)
  | accepted (read : Volser) (h : Hint)
  | unreadable
deriving DecidableEq, Repr

/-- The label search (R128, R129): with an expected volser MATCH, MISMATCH or UNREADABLE; with none (an audit read) the
first valid candidate is accepted. -/
def labelSearch (expected : Option Volser) (h : Hint) (reading : List Nat) : LabelOutcome :=
  let valid := (candidates h).filter (candidateValid reading)
  match expected with
  | some v =>
    match valid.find? fun c => candidateVolser reading c == v with
    | some c => .found c
    | none =>
      match valid with
      | [] => .unreadable
      | c :: _ => .mismatch (candidateVolser reading c)
  | none =>
    match valid with
    | [] => .unreadable
    | c :: _ => .accepted (candidateVolser reading c) c

end Sys2Proof.Machine
end

