-- ==== Sys2Proof/Machine/Frames.lean ====
section
/-! DEFINITION. Line frames: kinds (R26), payload layouts (R37, R46, R142, R168), the check (R25), and the reading of a
payload into its fields with the ranges of R46. -/

namespace Sys2Proof

/-- A request id or mount id occupies two bytes, station then sequence (R46). -/
def ReqId.bytes (i : ReqId) : List Byte := [byteOf i.station, byteOf i.seq]

end Sys2Proof

namespace Sys2Proof.Machine

/-- The kind's code, 1-19 in the order of the table of R26 (section 11.7). -/
def FrameKind.code : FrameKind → Nat
  | .hello => 1
  | .locate => 2
  | .holding => 3
  | .offer => 4
  | .bid => 5
  | .award => 6
  | .accept => 7
  | .decline => 8
  | .revoke => 9
  | .cancel => 10
  | .progress => 11
  | .result => 12
  | .fetch => 13
  | .notHere => 14
  | .deposit => 15
  | .credit => 16
  | .promptNotice => 17
  | .promptCleared => 18
  | .ack => 19

/-- The kind a code names; 1-19 (R25). -/
def FrameKind.ofCode : Nat → Option FrameKind
  | 1 => some .hello
  | 2 => some .locate
  | 3 => some .holding
  | 4 => some .offer
  | 5 => some .bid
  | 6 => some .award
  | 7 => some .accept
  | 8 => some .decline
  | 9 => some .revoke
  | 10 => some .cancel
  | 11 => some .progress
  | 12 => some .result
  | 13 => some .fetch
  | 14 => some .notHere
  | 15 => some .deposit
  | 16 => some .credit
  | 17 => some .promptNotice
  | 18 => some .promptCleared
  | 19 => some .ack
  | _ => none

/-- The payload length each kind calls for (R32, R37, R46, R142, R168). -/
def FrameKind.length : FrameKind → Nat
  | .hello => 11
  | .locate => 8
  | .holding => 13
  | .offer => 18
  | .bid => 5
  | .award => 17
  | .accept => 3
  | .decline => 3
  | .revoke => 2
  | .cancel => 2
  | .progress => 2
  | .result => 5
  | .fetch => 12
  | .notHere => 9
  | .deposit => 23
  | .credit => 2
  | .promptNotice => 8
  | .promptCleared => 1
  | .ack => 0

/-- The kinds that travel as broadcasts (R26). -/
def FrameKind.broadcast : FrameKind → Bool
  | .hello | .locate | .offer | .promptNotice | .promptCleared => true
  | .holding | .bid | .award | .accept | .decline | .revoke | .cancel | .progress | .result | .fetch | .notHere | .deposit
  | .credit | .ack => false

/-- The kind of a body. -/
def Body.kind : Body → FrameKind
  | .hello _ => .hello
  | .locate _ _ => .locate
  | .holding _ _ _ _ _ _ => .holding
  | .offer _ _ _ => .offer
  | .bid _ _ _ => .bid
  | .award _ _ _ => .award
  | .accept _ _ => .accept
  | .decline _ _ => .decline
  | .revoke _ => .revoke
  | .cancel _ => .cancel
  | .progress _ => .progress
  | .result _ _ _ => .result
  | .fetch _ _ _ _ _ => .fetch
  | .notHere _ _ _ => .notHere
  | .deposit _ => .deposit
  | .credit _ _ => .credit
  | .promptNotice _ _ _ => .promptNotice
  | .promptCleared _ => .promptCleared
  | .ack => .ack

/-! ### Payload layouts -/

def idOf (a b : Byte) : ReqId := ⟨a.toNat, b.toNat⟩

/-- A location station field carries 0-15, or 255 for SHELF (R46). -/
def stationByte : Option Nat → Byte
  | some a => byteOf a
  | none => 255

/-- A drive spec is the form, 1 DRIVE or 2 GROUP, and a number (R46). -/
def DriveSpec.bytes : DriveSpec → List Byte
  | .drive g => [1, byteOf g]
  | .group g => [2, byteOf g]

/-- The tail that OFFER and AWARD share: write flag, class, account, location station, slot, ring, pool (R46). -/
def RequestTerms.tail (t : RequestTerms) : List Byte :=
  [flagByte t.write, byteOf t.cls, byteOf t.account, stationByte t.loc.station] ++ bytes16 t.loc.slot
    ++ [flagByte t.loc.ring, byteOf t.loc.pool]

/-- The purpose code of a DEPOSIT (R142). -/
def RoutePurpose.code : RoutePurpose → Nat
  | .toDrive => 1
  | .toHome => 2
  | .unusable c => c

def RoutePurpose.ofCode (c : Nat) : RoutePurpose :=
  if c = 1 then .toDrive else if c = 2 then .toHome else .unusable c

/-- The flags byte of a DEPOSIT: bit 0 ring present, bit 1 counts present, bit 2 hard error (R142). -/
def Routing.flags (r : Routing) : Nat :=
  (if r.ring then 1 else 0) + (match r.counts with | none => 0 | some c => 2 + (if c.hardError then 4 else 0))

/-- The counts of a DEPOSIT, ten bytes, 0 when absent (R142). -/
def countBytes : Option Counts → List Byte
  | none => bytes32 0 ++ bytes32 0 ++ bytes16 0
  | some c => bytes32 c.blocksRead ++ bytes32 c.blocksWritten ++ bytes16 c.recoveries

/-- The payload of a body, in the order its table gives. -/
def Body.payload : Body → List Byte
  | .hello h => bytes32 h.uptime ++ [byteOf h.freeDrives, flagByte h.withdrawn, flagByte h.quiesced, byteOf h.westCapacity,
      byteOf h.eastCapacity, byteOf h.westOccupancy, byteOf h.eastOccupancy]
  | .locate id v => id.bytes ++ v.bytes
  | .holding id v slot pool ring state =>
      id.bytes ++ v.bytes ++ bytes16 slot ++ [byteOf pool, flagByte ring, byteOf state.code]
  | .offer id t spec => id.bytes ++ t.volser.bytes ++ spec.bytes ++ t.tail
  | .bid id e d => id.bytes ++ bytes16 e ++ [byteOf d]
  | .award id t d => id.bytes ++ [byteOf d] ++ t.volser.bytes ++ t.tail
  | .accept id d => id.bytes ++ [byteOf d]
  | .decline id r => id.bytes ++ [byteOf r.code]
  | .revoke id => id.bytes
  | .cancel id => id.bytes
  | .progress id => id.bytes
  | .result id k g => id.bytes ++ [byteOf k.codes.1, byteOf k.codes.2, byteOf g]
  | .fetch id v slot dest cls => id.bytes ++ v.bytes ++ bytes16 slot ++ [byteOf dest, byteOf cls]
  | .notHere id v r => id.bytes ++ v.bytes ++ [byteOf r.code]
  | .deposit r => r.mountId.bytes ++ r.volser.bytes
      ++ [byteOf r.purpose.code, stationByte r.destination, byteOf r.pool, byteOf r.hops, byteOf r.flags]
      ++ countBytes r.counts
  | .credit lane n => [byteOf lane.code, byteOf n]
  | .promptNotice n k v => [byteOf n, byteOf k.code] ++ v.bytes
  | .promptCleared n => [byteOf n]
  | .ack => []

/-! ### The check and the whole frame -/

/-- The sum of byte values times their positions, counted from `i` (R25). -/
def weightedSum : Nat → List Byte → Nat
  | _, [] => 0
  | i, b :: rest => i * b.toNat + weightedSum (i + 1) rest

/-- The check over the bytes before it (R25). -/
def frameCheck (bytes : List Byte) : BitVec 16 := BitVec.ofNat 16 (weightedSum 1 bytes)

/-- The header and payload of a frame (section 11.7). -/
def headBytes (dst src : Byte) (k : FrameKind) (seq : Byte) (payload : List Byte) : List Byte :=
  [dst, src, byteOf k.code, seq, byteOf payload.length] ++ payload

/-- The bytes a frame goes onto the line with. -/
def frameBytes (dst : Option Nat) (src seq : Nat) (b : Body) : List Byte :=
  let head := headBytes (stationByte dst) (byteOf src) b.kind (byteOf seq) b.payload
  head ++ bytes16 (frameCheck head).toNat

/-- The tests of R25 and R26 on a frame heard: the check, the source, the destination, the payload length, and a broadcast or
single-station destination as the kind travels. -/
def framePasses (k : FrameKind) (f : RawFrame) : Bool :=
  f.check == frameCheck (headBytes f.dst f.src k f.seq f.payload)
    && f.src.toNat ≤ 15
    && f.payload.length == k.length
    && (if k.broadcast then f.dst == 255 else f.dst.toNat ≤ 15)

/-- The frame that a run of bytes heard on the line spells, when its kind is one of the nineteen and its length field agrees
with the bytes there are. -/
def frameOfBytes : List Byte → Option (FrameKind × RawFrame)
  | dst :: src :: kind :: seq :: len :: rest =>
    match FrameKind.ofCode kind.toNat, rest.drop (rest.length - 2) with
    | some k, [c1, c2] =>
      if rest.length = len.toNat + 2 then
        some (k, ⟨dst, src, seq, rest.take len.toNat, BitVec.ofNat 16 (num16 c1 c2)⟩)
      else none
    | _, _ => none
  | _ => none

/-! ### Reading a payload -/

/-- The tail that OFFER and AWARD share, read with the ranges of R46; `none` when a field is outside its range. -/
def termsOf (v : Volser) : List Byte → Option RequestTerms
  | [w, c, acc, st, s1, s0, r, p] =>
    match flagOf w, flagOf r with
    | some write, some ring =>
      if v.wellFormed && c.toNat ≤ 3 && (st.toNat ≤ 15 || st == 255) && slotFits (num16 s1 s0) && p.toNat ≤ 15 then
        some ⟨v, write, c.toNat, acc.toNat, ⟨if st == 255 then none else some st.toNat, num16 s1 s0, ring, p.toNat⟩⟩
      else none
    | _, _ => none
  | _ => none

/-- A drive spec, read with the ranges of R46. -/
def specOf (form n : Byte) : Option DriveSpec :=
  if form == 1 && n.toNat ≤ 127 then some (.drive n.toNat)
  else if form == 2 && n.toNat ≤ 15 then some (.group n.toNat)
  else none

/-- A HELLO's fields, as carried (assumption 22). -/
def helloOf : List Byte → Option HelloFields
  | [u3, u2, u1, u0, d, w, q, wc, ec, wo, eo] =>
    some ⟨num32 u3 u2 u1 u0, d.toNat, w != 0, q != 0, wc.toNat, ec.toNat, wo.toNat, eo.toNat⟩
  | _ => none

/-- The counts a DEPOSIT carries, absent when its flags byte says so (R142). -/
def countsOf (present hard : Bool) (r3 r2 r1 r0 w3 w2 w1 w0 c1 c0 : Byte) : Option Counts :=
  if present then some ⟨num32 r3 r2 r1 r0, num32 w3 w2 w1 w0, num16 c1 c0, hard⟩ else none

/-- A DEPOSIT's routing record. A volser that is not well formed, or a purpose, destination, pool or hops outside its range,
gives the record destination none; the other fields are kept as carried (R143). Bits 3 to 7 of the flags byte are not looked at, and
without counts present neither are the hard error bit and the ten bytes of counts (assumption 77). -/
def depositOf : List Byte → Option Routing
  | [i1, i0, v1, v2, v3, v4, v5, v6, pu, de, po, ho, fl, r3, r2, r1, r0, w3, w2, w1, w0, c1, c0] =>
    let v := volserOf v1 v2 v3 v4 v5 v6
    let usable := v.wellFormed && (pu == 1 || pu == 2) && de.toNat ≤ 15 && po.toNat ≤ 15 && ho.toNat ≤ 30
    some ⟨v, idOf i1 i0, RoutePurpose.ofCode pu.toNat, if usable then some de.toNat else none, fl.getLsbD 0, po.toNat,
      ho.toNat, countsOf (fl.getLsbD 1) (fl.getLsbD 2) r3 r2 r1 r0 w3 w2 w1 w0 c1 c0⟩
  | _ => none

/-- A LOCATE's payload. -/
def readLocate : List Byte → Option Body
  | [i1, i0, v1, v2, v3, v4, v5, v6] =>
    if (volserOf v1 v2 v3 v4 v5 v6).wellFormed then some (.locate (idOf i1 i0) (volserOf v1 v2 v3 v4 v5 v6)) else none
  | _ => none

/-- A HOLDING's payload. -/
def readHolding : List Byte → Option Body
  | [i1, i0, v1, v2, v3, v4, v5, v6, s1, s0, po, ri, st] =>
    match flagOf ri, ReelState.ofCode st.toNat with
    | some ring, some state =>
      if (volserOf v1 v2 v3 v4 v5 v6).wellFormed && slotFits (num16 s1 s0) && po.toNat ≤ 15 then
        some (.holding (idOf i1 i0) (volserOf v1 v2 v3 v4 v5 v6) (num16 s1 s0) po.toNat ring state)
      else none
    | _, _ => none
  | _ => none

/-- An OFFER's payload. -/
def readOffer : List Byte → Option Body
  | i1 :: i0 :: v1 :: v2 :: v3 :: v4 :: v5 :: v6 :: form :: n :: tail =>
    match termsOf (volserOf v1 v2 v3 v4 v5 v6) tail, specOf form n with
    | some t, some spec => if i1.toNat ≤ 15 then some (.offer (idOf i1 i0) t spec) else none
    | _, _ => none
  | _ => none

/-- A BID's payload. -/
def readBid : List Byte → Option Body
  | [i1, i0, e1, e0, d] =>
    if i1.toNat ≤ 15 && num16 e1 e0 ≤ Config.topEstimate && d.toNat ≤ 7 then
      some (.bid (idOf i1 i0) (num16 e1 e0) d.toNat)
    else none
  | _ => none

/-- An AWARD's payload. -/
def readAward : List Byte → Option Body
  | i1 :: i0 :: d :: v1 :: v2 :: v3 :: v4 :: v5 :: v6 :: tail =>
    match termsOf (volserOf v1 v2 v3 v4 v5 v6) tail with
    | some t => if i1.toNat ≤ 15 && d.toNat ≤ 7 then some (.award (idOf i1 i0) t d.toNat) else none
    | none => none
  | _ => none

/-- An ACCEPT's payload. -/
def readAccept : List Byte → Option Body
  | [i1, i0, d] => if i1.toNat ≤ 15 && d.toNat ≤ 7 then some (.accept (idOf i1 i0) d.toNat) else none
  | _ => none

/-- A DECLINE's payload. -/
def readDecline : List Byte → Option Body
  | [i1, i0, r] =>
    match DeclineReason.ofCode r.toNat with
    | some r => if i1.toNat ≤ 15 then some (.decline (idOf i1 i0) r) else none
    | none => none
  | _ => none

/-- The payload of a REVOKE, a CANCEL or a PROGRESS: a request id. -/
def readId (make : ReqId → Body) : List Byte → Option Body
  | [i1, i0] => if i1.toNat ≤ 15 then some (make (idOf i1 i0)) else none
  | _ => none

/-- A RESULT's payload. A FAILED or CANCELLED with a global drive other than 0 is taken like one with 0 (assumption 55). -/
def readResult : List Byte → Option Body
  | [i1, i0, o, r, g] =>
    match ResultKind.ofCodes o.toNat r.toNat with
    | some k => if i1.toNat ≤ 15 && g.toNat ≤ 127 then some (.result (idOf i1 i0) k g.toNat) else none
    | none => none
  | _ => none

/-- A FETCH's payload. -/
def readFetch : List Byte → Option Body
  | [i1, i0, v1, v2, v3, v4, v5, v6, s1, s0, de, c] =>
    if i1.toNat ≤ 15 && (volserOf v1 v2 v3 v4 v5 v6).wellFormed && slotFits (num16 s1 s0) && de.toNat ≤ 15
        && c.toNat ≤ 3 then
      some (.fetch (idOf i1 i0) (volserOf v1 v2 v3 v4 v5 v6) (num16 s1 s0) de.toNat c.toNat)
    else none
  | _ => none

/-- A NOT HERE's payload. -/
def readNotHere : List Byte → Option Body
  | [i1, i0, v1, v2, v3, v4, v5, v6, r] =>
    match NotHereReason.ofCode r.toNat with
    | some r =>
      if i1.toNat ≤ 15 && (volserOf v1 v2 v3 v4 v5 v6).wellFormed then
        some (.notHere (idOf i1 i0) (volserOf v1 v2 v3 v4 v5 v6) r)
      else none
    | none => none
  | _ => none

/-- A CREDIT's payload. -/
def readCredit : List Byte → Option Body
  | [l, n] =>
    match Side.ofCode l.toNat with
    | some lane => if 1 ≤ n.toNat then some (.credit lane n.toNat) else none
    | none => none
  | _ => none

/-- A PROMPT NOTICE's payload. -/
def readNotice : List Byte → Option Body
  | [n, k, v1, v2, v3, v4, v5, v6] =>
    match PromptKind.ofCode k.toNat with
    | some k =>
      if (volserOf v1 v2 v3 v4 v5 v6).wellFormed then some (.promptNotice n.toNat k (volserOf v1 v2 v3 v4 v5 v6)) else none
    | none => none
  | _ => none

/-- A PROMPT CLEARED's payload. -/
def readCleared : List Byte → Option Body
  | [n] => some (.promptCleared n.toNat)
  | _ => none

/-- An ACK's payload: none. -/
def readAck : List Byte → Option Body
  | [] => some .ack
  | _ => none

/-- The body a payload of the kind carries, or `none` when a field lies outside its stated range, which makes the frame
unusable to the block that acts on it (R1, R46, R141, R169). -/
def bodyOf (k : FrameKind) (p : List Byte) : Option Body :=
  match k with
  | .hello => (helloOf p).map .hello
  | .locate => readLocate p
  | .holding => readHolding p
  | .offer => readOffer p
  | .bid => readBid p
  | .award => readAward p
  | .accept => readAccept p
  | .decline => readDecline p
  | .revoke => readId .revoke p
  | .cancel => readId .cancel p
  | .progress => readId .progress p
  | .result => readResult p
  | .fetch => readFetch p
  | .notHere => readNotHere p
  | .deposit => (depositOf p).map .deposit
  | .credit => readCredit p
  | .promptNotice => readNotice p
  | .promptCleared => readCleared p
  | .ack => readAck p

/-- A body whose fields lie in the ranges their tables give, so that the frame carries each of them exactly. -/
def Body.fits : Body → Bool
  | .hello h => h.uptime ≤ Config.top32 && h.freeDrives ≤ 255 && h.westCapacity ≤ 255 && h.eastCapacity ≤ 255
      && h.westOccupancy ≤ 255 && h.eastOccupancy ≤ 255
  | .locate id v => id.fits && v.wellFormed
  | .holding id v slot pool _ _ => id.fits && v.wellFormed && slotFits slot && pool ≤ 15
  | .offer id t spec => id.fits && termsFit t
      && (match spec with | .drive g => g ≤ 127 | .group g => g ≤ 15)
  | .bid id e d => id.fits && e ≤ Config.topEstimate && d ≤ 7
  | .award id t d => id.fits && termsFit t && d ≤ 7
  | .accept id d => id.fits && d ≤ 7
  | .decline id _ | .revoke id | .cancel id | .progress id => id.fits
  | .result id _ g => id.fits && g ≤ 127
  | .fetch id v slot dest cls => id.fits && v.wellFormed && slotFits slot && dest ≤ 15 && cls ≤ 3
  | .notHere id v _ => id.fits && v.wellFormed
  | .deposit r => r.mountId.fits && r.volser.wellFormed && (r.purpose == .toDrive || r.purpose == .toHome)
      && (match r.destination with | some d => d ≤ 15 | none => false) && r.pool ≤ 15 && r.hops ≤ 30
      && (match r.counts with | none => true | some c => c.fits)
  | .credit _ n => 1 ≤ n && n ≤ 255
  | .promptNotice n _ v => n ≤ 255 && v.wellFormed
  | .promptCleared n => n ≤ 255
  | .ack => true
where
  /-- The ranges of the fields OFFER and AWARD share. -/
  termsFit (t : RequestTerms) : Bool :=
    t.volser.wellFormed && t.cls ≤ 3 && t.account ≤ 255
      && (match t.loc.station with | some a => a ≤ 15 | none => true) && slotFits t.loc.slot && t.loc.pool ≤ 15

end Sys2Proof.Machine
end

