-- ==== Sys2Proof/Machine/Ops.lean ====
section
/-! DEFINITION. The named operations over the state: tables, the records of each block, notices and ports, grid points,
travel and committed work. Every family is written over these. -/

namespace Sys2Proof.Machine

/-! ### Tables and lists -/

/-- The entry a table holds at a key. -/
def tableGet {α : Type} : Table α → Nat → Option α
  | [], _ => none
  | (k, v) :: t, i => if i = k then some v else tableGet t i

/-- A table with the entry written at a key, keys kept strictly rising. -/
def tablePut {α : Type} : Table α → Nat → α → Table α
  | [], i, x => [(i, x)]
  | (k, v) :: t, i, x =>
    if i < k then (i, x) :: (k, v) :: t
    else if i = k then (i, x) :: t
    else (k, v) :: tablePut t i x

/-- A table without the entry at a key. -/
def tableDrop {α : Type} (t : Table α) (i : Nat) : Table α := t.filter fun e => e.1 != i

/-- A table in which an entry equal to the default is not listed. -/
def tableSet {α : Type} [DecidableEq α] (dflt : α) (t : Table α) (i : Nat) (x : α) : Table α :=
  if x = dflt then tableDrop t i else tablePut t i x

/-- The form a table keeps: keys strictly rising. -/
def tableWf {α : Type} : Table α → Bool
  | [] => true
  | [_] => true
  | (i, _) :: (j, y) :: t => decide (i < j) && tableWf ((j, y) :: t)

/-- The list with `f` applied to the entries that `p` picks. -/
def updWhere {α : Type} (p : α → Bool) (f : α → α) (l : List α) : List α := l.map fun x => if p x then f x else x

/-- The list without its first entry equal to `x`. -/
def dropFirst {α : Type} [DecidableEq α] (x : α) : List α → List α
  | [] => []
  | y :: t => if y = x then t else y :: dropFirst x t

/-! ### Host Port Unit -/

/-- This station's address (R203). -/
def State.addr (s : State) : Nat := s.host.straps.address

/-- The station clock (R200). -/
def State.clock (s : State) : Nat := s.host.clock

def State.settings (s : State) : Settings := s.host.settings

def State.timers (s : State) : Timers := s.host.settings.timers

/-- Free places of the report FIFO (R197). -/
def State.reportRoom (s : State) : Nat := Config.reportPlaces - s.host.reports.length

/-- Add a record to the tail of the report FIFO (R195). -/
def pushReport (r : Report) (s : State) : State :=
  { s with host := { s.host with reports := s.host.reports ++ [r] } }

/-! ### Notices, each with its owner (R197) -/

def postNeg (n : Notice) (s : State) : State := { s with neg := { s.neg with notices := s.neg.notices ++ [n] } }

def postMount (n : Notice) (s : State) : State := { s with mnt := { s.mnt with notices := s.mnt.notices ++ [n] } }

def postSeq (n : Notice) (s : State) : State := { s with seq := { s.seq with notices := s.seq.notices ++ [n] } }

def postLane (n : Notice) (s : State) : State := { s with lane := { s.lane with notices := s.lane.notices ++ [n] } }

def postWear (n : Notice) (s : State) : State := { s with wear := { s.wear with notices := s.wear.notices ++ [n] } }

def postAcct (n : Notice) (s : State) : State := { s with acct := { s.acct with notices := s.acct.notices ++ [n] } }

def postHost (n : Notice) (s : State) : State := { s with host := { s.host with notices := s.host.notices ++ [n] } }

/-! ### Origin records -/

/-- The origin record of a request that has not ended (R49). -/
def State.origin (s : State) (id : ReqId) : Option OriginRec :=
  s.neg.origins.find? fun o => o.id = id && o.ended.isNone

def updOrigin (id : ReqId) (f : OriginRec → OriginRec) (s : State) : State :=
  { s with neg := { s.neg with origins := updWhere (fun o => o.id = id) f s.neg.origins } }

/-- Ended records that wait for nothing more leave the table (R49). -/
def sweepOrigins (s : State) : State :=
  { s with neg := { s.neg with
      origins := s.neg.origins.filter fun o => o.ended.isNone || o.noticeWaits || o.promptWaits } }

/-- Remove a bid record (R55). -/
def dropBid (id : ReqId) (s : State) : State :=
  { s with neg := { s.neg with bids := s.neg.bids.filter fun b => b.id != id } }

/-! ### Drives and mount records -/

def State.drive (s : State) (d : Nat) : Option DriveRec := s.mnt.drives[d]?

def updDrive (d : Nat) (f : DriveRec → DriveRec) (s : State) : State :=
  { s with mnt := { s.mnt with drives := s.mnt.drives.modify d f } }

/-- The live mount record with a mount id. -/
def State.mount (s : State) (id : ReqId) : Option MountRec := s.mnt.mounts.find? fun m => m.id = id

def updMount (id : ReqId) (f : MountRec → MountRec) (s : State) : State :=
  { s with mnt := { s.mnt with mounts := updWhere (fun m => m.id = id) f s.mnt.mounts } }

def dropMount (id : ReqId) (s : State) : State :=
  { s with mnt := { s.mnt with mounts := s.mnt.mounts.filter fun m => m.id != id } }

/-- The global number of a local drive: address × 8 + local number. -/
def State.globalDrive (s : State) (d : Nat) : Nat := s.addr * 8 + d

/-- Send LOAD on the drive link (R89). -/
def sendLoad (m : LoadMessage) (s : State) : State := { s with mnt := { s.mnt with sent := s.mnt.sent ++ [m] } }

/-! ### Orders -/

/-- The orders the Handling Sequencer holds: the queue and the arm position. -/
def State.orders (s : State) : List ArmOrder := s.seq.queue ++ s.seq.inArm.toList

def State.order (s : State) (n : Nat) : Option ArmOrder := s.orders.find? fun o => o.number = n

/-- Change the order with a number, wherever the sequencer holds it. -/
def updOrder (n : Nat) (f : ArmOrder → ArmOrder) (s : State) : State :=
  { s with seq := { s.seq with
      queue := updWhere (fun o => o.number = n) f s.seq.queue
      inArm := s.seq.inArm.map fun o => if o.number = n then f o else o } }

/-- Send a message on the arm port (section 6.2). -/
def sendArm (m : ArmMessage) (s : State) : State := { s with seq := { s.seq with sent := s.seq.sent ++ [m] } }

/-! ### Lanes -/

def State.side (s : State) : Side → SideRec
  | .west => s.lane.west
  | .east => s.lane.east

def updSide (d : Side) (f : SideRec → SideRec) (s : State) : State :=
  match d with
  | .west => { s with lane := { s.lane with west := f s.lane.west } }
  | .east => { s with lane := { s.lane with east := f s.lane.east } }

/-- Reserved credit: how many orders hold one (R135). -/
def SideRec.reserved (r : SideRec) : Nat := r.holders.length

/-- Whether a side is fitted (R135). -/
def State.fitted (s : State) (d : Side) : Bool := (s.side d).outbound != .notFitted

/-- The neighbour of a side: address - 1 to the west, address + 1 to the east (R135). -/
def State.neighbour (s : State) : Side → Nat
  | .west => s.addr - 1
  | .east => s.addr + 1

/-- The fitted side whose neighbour is the station `a`, if any. -/
def State.sideOf (s : State) (a : Nat) : Option Side :=
  if s.fitted .west && a + 1 == s.addr then some .west
  else if s.fitted .east && a == s.addr + 1 then some .east
  else none

/-- The side that leads toward another station: west to a lower address, east to a higher (R72, R108, R147). -/
def State.toward (s : State) (a : Nat) : Side := if a < s.addr then .west else .east

/-! ### Prompts and the cell -/

/-- A prompt kind's priority (section 8.2). -/
def PromptKind.priority : PromptKind → Nat
  | .ring => 5
  | .fetch => 4
  | .unreadable => 4
  | .misfile => 3
  | .retire => 2
  | .remove => 2
  | .unserved => 1

def State.prompt (s : State) (n : Nat) : Option Prompt := s.prm.prompts.find? fun p => p.number = n

def updPrompt (n : Nat) (f : Prompt → Prompt) (s : State) : State :=
  { s with prm := { s.prm with prompts := updWhere (fun p => p.number = n) f s.prm.prompts } }

/-- The live prompt of a mount with a kind. -/
def State.mountPrompt (s : State) (id : ReqId) (k : PromptKind) : Option Prompt :=
  s.prm.prompts.find? fun p => p.mountId = some id && p.kind = k

def setCell (i : Nat) (c : CellPos) (s : State) : State :=
  { s with prm := { s.prm with cells := s.prm.cells.set i c } }

/-- The lowest-numbered EMPTY position (R154). -/
def State.emptyCell (s : State) : Option Nat := s.prm.cells.findIdx? fun c => c = .empty

/-! ### Grid points, travel and committed work (chapter 4) -/

def Settings.mouth (c : Settings) : Side → Option Mouth
  | .west => c.west
  | .east => c.east

/-- This side's advertised capacity, as WL or EL gives it; 0 while its item has not been taken (assumption 67). -/
def State.advertised (s : State) (d : Side) : Nat :=
  match s.settings.mouth d with
  | some m => m.capacity
  | none => 0

/-- A drive's grid point (R90). The undefined points are numbered 0 for the cell, 1 for the park position, 2 and 3 for the
mouths, and 4 on for the drives (assumption 7). -/
def State.drivePoint (s : State) (d : Nat) : Point :=
  match s.drive d with
  | some r => r.position.getD (Config.undefinedPoint (4 + d))
  | none => Config.undefinedPoint (4 + d)

/-- A mouth's grid point, as WL or EL gives it (R198). -/
def State.mouthPoint (s : State) (d : Side) : Point :=
  match s.settings.mouth d with
  | some m => m.point
  | none => Config.undefinedPoint (match d with | .west => 2 | .east => 3)

/-- The cell's grid point, as CL gives it (R198). -/
def State.cellPoint (s : State) : Point := s.settings.cell.getD (Config.undefinedPoint 0)

/-- The grid point of a location (R113). -/
def State.locPoint (s : State) : Loc → Point
  | .slot n => slotPoint n
  | .drive d => s.drivePoint d
  | .mouth d => s.mouthPoint d
  | .cell => s.cellPoint

/-- The arm reference position A (R83): the to-location of the last order issued, or the park position (R88). -/
def State.armRef (s : State) : Point := s.seq.ref.getD (s.settings.park.getD (Config.undefinedPoint 1))

/-- Travel with this station's KC and KT (R77). -/
def State.travel (s : State) (p q : Point) : Nat := Machine.travel s.settings.kc s.settings.kt p q

/-- An order's estimate: the travel of its leg plus 2 × G (R84). -/
def State.legEstimate (s : State) (src dst : Loc) : Nat :=
  s.travel (s.locPoint src) (s.locPoint dst) + 2 * s.settings.gp

/-- The committed-work sum: the estimates of all orders held and the reserved estimates of all live records (R86). -/
def State.workSum (s : State) : Nat :=
  (s.orders.map fun o => o.estimate).sum + (s.mnt.mounts.map fun m => m.reserved.getD 0).sum

/-- The value W: the smaller of the sum and 65,534 (R86). -/
def State.work (s : State) : Nat := min s.workSum Config.topEstimate

/-! ### Held and live -/

/-- Spool records held (R188). -/
def State.held (s : State) : Nat := s.acct.spool.length

/-- Live mount records (R95). -/
def State.live (s : State) : Nat := s.mnt.mounts.length

end Sys2Proof.Machine
end

