-- ==== Sys2Proof/Machine/Flags.lean ====
section
/-! DEFINITION. The flags and signals that are computed from the state: the attention line (R195), the HELLO fields (R37,
R38), the drives that may serve, the spool state's next value (R189), the display order and the two display lines (R157,
R159), and the flags byte of the accounting record (R187). -/

namespace Sys2Proof.Machine

/-- The tag of a report record: the command's, the DRAIN's, and 0 for a notice (R195). -/
def Report.tag : Report → Byte
  | .answer t _ => t
  | .notice _ => 0
  | .accounting t _ => t

/-- The form byte of a report record (section 11.7). -/
def Report.form : Report → Byte
  | .answer _ _ => 1
  | .notice _ => 2
  | .accounting _ _ => 3

/-- The attention line is asserted while the report FIFO holds a record (R195). -/
def State.attention (s : State) : Bool := !s.host.reports.isEmpty

/-- Whether a drive is FREE and not varied off. -/
def DriveRec.isFree (r : DriveRec) : Bool := r.state = .free && !r.variedOff

/-- The free drive count of a HELLO (R91). -/
def State.freeDrives (s : State) : Nat := (s.mnt.drives.filter DriveRec.isFree).length

/-- The quiesced flag of a HELLO: QUIESCED, or the arm in FAULT (R37). -/
def State.quiescedFlag (s : State) : Bool := s.host.state = .quiesced || s.seq.arm = .fault

/-- A side's inbound capacity in a HELLO: what it advertises, 0 when it is not fitted (R37). -/
def State.helloCapacity (s : State) (d : Side) : Nat := if s.fitted d then s.advertised d else 0

/-- The HELLO fields as the station stands (R37, R38). -/
def State.helloNow (s : State) : HelloFields where
  uptime := s.clock
  freeDrives := s.freeDrives
  withdrawn := s.acct.spoolState = .withdrawn
  quiesced := s.quiescedFlag
  westCapacity := s.helloCapacity .west
  eastCapacity := s.helloCapacity .east
  westOccupancy := (s.side .west).inbound.length
  eastOccupancy := (s.side .east).inbound.length

/-- The spool state after an evaluation (R189). -/
def spoolNext (now : SpoolState) (held live high low : Nat) : SpoolState :=
  match now with
  | .normal =>
    if Config.withdrawLevel ≤ held + live then .withdrawn
    else if high ≤ held then .drainWanted
    else .normal
  | .drainWanted =>
    if Config.withdrawLevel ≤ held + live then .withdrawn
    else if held ≤ low then .normal
    else .drainWanted
  | .withdrawn => if held ≤ low then .normal else .withdrawn

/-- A prompt is displayable when its stage is QUEUED, REMINDED or ESCALATED and it holds no answer (R157). -/
def Prompt.displayable (p : Prompt) : Bool := p.stage != .waitingCell && p.answer = .none

/-- The displayable prompts of one priority, in the order they entered. -/
def State.shownAt (s : State) (priority : Nat) : List Prompt :=
  s.prm.prompts.filter fun p => p.displayable && p.kind.priority == priority

/-- The display order: descending priority, then order of entry (R157). -/
def State.displayOrder (s : State) : List Prompt := [5, 4, 3, 2, 1].flatMap s.shownAt

/-- The head of the display order. -/
def State.displayHead (s : State) : Option Nat := s.displayOrder.head?.map (·.number)

/-- The first display line (R159): the words NO PROMPTS, or the shown prompt with the marks its state calls for. -/
inductive FirstLine where
  | noPrompts
  | shown (number : Nat) (kind : PromptKind) (v : Volser) (cellPos drive : Option Nat) (ringWanted : Bool)
      (cause : Option MisfileCause) (request : Option ReqId) (flashing escalated markedNew : Bool)
deriving DecidableEq, Repr

/-- The first display line as the console stands (R158, R159). -/
def State.firstLine (s : State) : FirstLine :=
  match s.prm.shown.bind s.prompt with
  | none => .noPrompts
  | some p =>
    .shown p.number p.kind p.volser p.cellPos (if p.kind = .fetch ∨ p.kind = .ring then p.drive else none) p.ringWanted
      p.cause p.requestId (p.stage = .reminded || p.stage = .escalated) (p.stage = .escalated) s.prm.unconfirmed

/-- The second display line (R159): remote entries, displayable prompts other than the shown one, and DOOR. -/
def State.secondLine (s : State) : Nat × Nat × Bool :=
  (s.prm.remote.length, (s.displayOrder.filter fun p => s.prm.shown != some p.number).length, s.prm.doorOpen)

/-- The flags byte of an accounting record (section 11.7). -/
def AcctRecord.flags (r : AcctRecord) : Nat :=
  (if r.manual then 1 else 0) + (if r.ringInserted then 2 else 0) + (if r.saturated then 4 else 0)
    + (if r.readyTime.isSome && r.unloadTime.isSome then 8 else 0)
    + (match r.counts with | none => 0 | some c => 16 + (if c.hardError then 32 else 0))

end Sys2Proof.Machine
end

