-- ==== Sys2Proof/Machine/Transmit.lean ====
section
/-! DEFINITION. The transmit queue (sections 2.3 to 2.5): offering a frame, merging CREDITs, a waiting frame's entry, and the
attempts of the frame in service. -/

namespace Sys2Proof.Machine

/-- What starts or changes when a frame enters the transmit queue, or is discarded in CONFLICT in place of entering (R43): the
window of a LOCATE, OFFER or AWARD (R51, R53, R57), the arrival limit of a FETCH (R98), the notice state of a prompt (R168), and
an undelivered deposit that has been taken (R150). -/
def frameEntered (f : TxFrame) (s : State) : State :=
  match f.body with
  | .locate id _ =>
    updOrigin id (fun o => if o.ended.isNone && o.state = .locating
      then { o with locateWindow := some s.timers.locateWindow } else o) s
  | .offer id _ _ =>
    updOrigin id (fun o => if o.ended.isNone && o.state = .offered
      then { o with bidWindow := some s.timers.bidWindow } else o) s
  | .award id _ _ =>
    updOrigin id (fun o => if o.ended.isNone && o.state = .awarding && o.awardee = f.dst
      then { o with awardAnswer := some s.timers.awardAnswer } else o) s
  | .fetch id _ _ _ _ =>
    updMount id (fun m => if m.stage = .sourcing then { m with arrivalLimit := some s.timers.arrivalLimit } else m) s
  | .promptNotice n _ _ => updPrompt n (fun p => if p.notice = .offered then { p with notice := .sent } else p) s
  | .deposit r =>
    match f.resend, f.dst.bind s.sideOf with
    | true, some d => updSide d (fun x => { x with undelivered := dropFirst r x.undelivered }) s
    | _, _ => s
  | _ => s

/-- A CREDIT to the same destination and lane whose first attempt has not begun (R36). -/
def TxFrame.isCredit (dst : Option Nat) (lane : Side) (f : TxFrame) : Bool :=
  match f.body with
  | .credit l _ => l = lane && f.dst = dst && !f.begun
  | _ => false

/-- The count a CREDIT carries; 0 for any other frame. -/
def TxFrame.creditCount (f : TxFrame) : Nat :=
  match f.body with
  | .credit _ n => n
  | _ => 0

/-- The queued CREDIT's count increased by the offered count, saturating at 255 (R36). -/
def TxFrame.addCredit (n : Nat) (f : TxFrame) : TxFrame :=
  match f.body with
  | .credit l m => { f with body := .credit l (satAdd 255 m n) }
  | _ => f

/-- A frame takes its place at the tail of the queue. A CREDIT takes into itself the matching CREDITs that wait (R36). -/
def enterQueue (f : TxFrame) (s : State) : State :=
  let s := frameEntered f s
  match f.body with
  | .credit lane _ =>
    let merged := (s.line.waiting.filter (TxFrame.isCredit f.dst lane)).foldl (fun g w => g.addCredit w.creditCount) f
    { s with line := { s.line with
        queue := s.line.queue ++ [merged]
        waiting := s.line.waiting.filter fun w => !TxFrame.isCredit f.dst lane w } }
  | _ => { s with line := { s.line with queue := s.line.queue ++ [f] } }

/-- Whether a new frame is taken at once: a place is free and no frame waits for one, so that the queue stays in the order offered
(R35, assumption 10). -/
def State.txRoom (s : State) : Bool := decide (s.line.queue.length < Config.transmitPlaces) && s.line.waiting.isEmpty

/-- A block offers a frame to the Line Unit: discarded in CONFLICT (R43), merged (R36), taken into the queue, or waiting for a
place (R35). -/
def offerTx (f : TxFrame) (s : State) : State :=
  if s.host.state = .conflict then frameEntered f s
  else
    match f.body with
    | .credit lane n =>
      if s.line.queue.any (TxFrame.isCredit f.dst lane) then
        { s with line := { s.line with
            queue := updWhere (TxFrame.isCredit f.dst lane) (TxFrame.addCredit n) s.line.queue } }
      else if s.txRoom then enterQueue f s
      else { s with line := { s.line with waiting := s.line.waiting ++ [f] } }
    | _ =>
      if s.txRoom then enterQueue f s
      else { s with line := { s.line with waiting := s.line.waiting ++ [f] } }

/-- Offer a unicast frame to a station. -/
def offerTo (a : Nat) (b : Body) (s : State) : State := offerTx ⟨some a, b, false, 0, false⟩ s

/-- Offer a broadcast frame. -/
def offerAll (b : Body) (s : State) : State := offerTx ⟨none, b, false, 0, false⟩ s

/-- A DEPOSIT offered again on a restart, counted among the undelivered until it enters the queue (R150). -/
def offerResend (a : Nat) (r : Routing) (s : State) : State := offerTx ⟨some a, .deposit r, false, 0, true⟩ s

/-- The earliest waiting frame takes a freed place (R35). -/
def takeWaitingFrame (s : State) : State :=
  match s.line.waiting with
  | [] => s
  | f :: rest =>
    if s.line.queue.length < Config.transmitPlaces then
      enterQueue f { s with line := { s.line with waiting := rest } }
    else s

/-- Whether a HELLO of this station is queued or waiting and has not begun (R38). -/
def State.helloPending (s : State) : Bool :=
  (s.line.queue ++ s.line.waiting).any fun f => f.body.kind = .hello && !f.begun

/-- Offer a HELLO, unless one is still queued that has not begun (R38). Its fields are filled when its first attempt begins. -/
def offerHello (s : State) : State := if s.helloPending then s else offerAll (.hello s.helloNow) s

/-- The frame in service leaves the queue and its transmission ends. -/
def leaveQueue (s : State) : State :=
  { s with line := { s.line with queue := s.line.queue.tail, phase := .idle, attempt := 0, retries := 0, backoff := 0 } }

/-- A frame's contents are fixed as its first attempt begins: a HELLO's fields are filled, and a unicast frame takes the line
sequence counter's value (R30, R33, R38). -/
def beginFrame (f : TxFrame) (s : State) : State :=
  let body := match f.body with
    | .hello _ => Body.hello s.helloNow
    | b => b
  let line := s.line
  match f.dst with
  | none => { s with line := { line with queue := { f with body := body, begun := true, seq := 0 } :: line.queue.tail } }
  | some _ =>
    { s with line := { line with
        queue := { f with body := body, begun := true, seq := line.seqCounter } :: line.queue.tail
        seqCounter := wrapSucc 256 line.seqCounter } }

/-- An attempt begins, once the line has been quiet and any backoff counted out (R30). -/
def attemptStart (s : State) : State :=
  match s.line.queue with
  | [] => s
  | f :: _ =>
    if s.line.phase = .idle && (s.host.state = .running || s.host.state = .quiesced) then
      let s := if f.begun then s else beginFrame f s
      { s with line := { s.line with phase := .sending, attempt := s.line.attempt + 1, backoff := 0 } }
    else s

/-- The slots counted before attempt k + 1 (R30). -/
def backoffSlots (address k : Nat) : Nat := (address + 7 * k) % 16 + 1

/-- Put bytes on the line. -/
def sendLine (bytes : List Byte) (s : State) : State := { s with line := { s.line with sent := s.line.sent ++ [bytes] } }

/-- The whole frame has been echoed: a broadcast is sent and leaves, a unicast waits for its ACK (R30). -/
def attemptDone (s : State) : State :=
  match s.line.queue with
  | [] => s
  | f :: _ =>
    if s.line.phase = .sending then
      let s := sendLine (frameBytes f.dst s.addr f.seq f.body) s
      match f.dst with
      | none => leaveQueue s
      | some _ => { s with line := { s.line with phase := .ackWait } }
    else s

/-- Send an ACK in the acknowledge gap, outside the queue (R32). -/
def sendAck (a seq : Nat) (s : State) : State := sendLine (frameBytes (some a) s.addr seq .ack) s

/-- An ACK that matches the frame waiting for it delivers the frame (R31). -/
def takeAck (src seq : Nat) (s : State) : State :=
  match s.line.queue with
  | [] => s
  | f :: _ => if s.line.phase = .ackWait && f.dst = some src && f.seq = seq then leaveQueue s else s

end Sys2Proof.Machine
end

