-- ==== Sys2Proof/Machine/Catalog.lean ====
section
/-! DEFINITION. The Reel Directory's requests (chapter 1): lookup, take-out, return, mark-missing, retirement, audit outcome,
learning. -/

namespace Sys2Proof.Machine

/-- The catalogue entry that holds a volser, with its slot. -/
def State.homeOf (s : State) (v : Volser) : Option (Nat × HomeEntry) := s.dir.catalog.find? fun e => e.2.volser = v

/-- The catalogue entry of a slot. -/
def State.entry (s : State) (slot : Nat) : Option HomeEntry := tableGet s.dir.catalog slot

/-- The learnt entry for a volser, with its position. -/
def State.learntOf (s : State) (v : Volser) : Option (Nat × LearntEntry) := s.dir.learnt.find? fun e => e.2.volser = v

def setEntry (slot : Nat) (e : HomeEntry) (s : State) : State :=
  { s with dir := { s.dir with catalog := tablePut s.dir.catalog slot e } }

def dropEntry (slot : Nat) (s : State) : State :=
  { s with dir := { s.dir with catalog := tableDrop s.dir.catalog slot } }

/-- Delete the learnt entries that `p` picks. -/
def forgetWhere (p : LearntEntry → Bool) (s : State) : State :=
  { s with dir := { s.dir with learnt := s.dir.learnt.filter fun e => !p e.2 } }

/-- Delete the learnt entry for a volser (R17). -/
def forgetVolser (v : Volser) (s : State) : State := forgetWhere (fun e => e.volser = v) s

/-- Delete every learnt entry of a holder (R17). -/
def forgetHolder (a : Nat) (s : State) : State := forgetWhere (fun e => e.holder = a) s

/-- What a location lookup returns (R18). -/
inductive Lookup where
  | home (slot : Nat) (e : HomeEntry)
  | learnt (e : LearntEntry)
  | unknown
deriving DecidableEq, Repr

/-- The location lookup: the catalogue first, then the learnt table (R18). -/
def State.lookup (s : State) (v : Volser) : Lookup :=
  match s.homeOf v with
  | some (slot, e) => .home slot e
  | none =>
    match s.learntOf v with
    | some (_, e) => .learnt e
    | none => .unknown

/-- The answers of a take-out request (R6). -/
inductive TakeOut where
  | granted (e : HomeEntry)
  | takenAgain
  | refused (r : NotHereReason)
deriving DecidableEq, Repr

/-- The refusal that names an entry's state (R6, R72). -/
def ReelState.refusal : ReelState → NotHereReason
  | .home | .out => .out
  | .retiring => .retiring
  | .retired => .retired
  | .missing => .missing

/-- A take-out request's answer (R6). -/
def State.takeOutAnswer (s : State) (slot : Nat) (v : Volser) (id : ReqId) : TakeOut :=
  match s.entry slot with
  | none => .refused .absent
  | some e =>
    if e.volser ≠ v then .refused .absent
    else if e.state = .home then .granted e
    else if e.state = .out && e.mountId = some id then .takenAgain
    else .refused e.state.refusal

/-- The effect of a granted take-out: HOME becomes OUT with the mount id (R6). -/
def takeOut (slot : Nat) (v : Volser) (id : ReqId) (s : State) : State :=
  match s.takeOutAnswer slot v id with
  | .granted e => setEntry slot { e with state := .out, mountId := some id } s
  | _ => s

/-- The return check: it passes when the catalogue holds the volser OUT or MISSING, and supplies the slot (R7). -/
def State.returnCheck (s : State) (v : Volser) : Option Nat :=
  match s.homeOf v with
  | some (slot, e) => if e.state = .out || e.state = .missing then some slot else none
  | none => none

/-- A return completion: an OUT or MISSING entry that holds the volser becomes HOME with the carried ring, and the slot and
counts are handed over to the Wear Monitor (R8). -/
def returnCompletion (slot : Nat) (v : Volser) (ring : Bool) (counts : Option Counts) (s : State) : State :=
  match s.entry slot with
  | some e =>
    if e.volser = v && (e.state = .out || e.state = .missing) then
      let s := setEntry slot { e with state := .home, mountId := none, ring := ring } s
      { s with wear := { s.wear with handovers := s.wear.handovers ++ [⟨slot, v, counts⟩] } }
    else s
  | none => s

/-- A mark-missing request: HOME, OUT or RETIRING becomes MISSING (R9). -/
def markMissing (slot : Nat) (v : Volser) (s : State) : State :=
  match s.entry slot with
  | some e =>
    if e.volser = v && (e.state = .home || e.state = .out || e.state = .retiring) then
      setEntry slot { e with state := .missing, mountId := none } s
    else s
  | none => s

/-- A mark-missing request for a volser, when the catalogue holds it (R9, R117, R164). -/
def markHeldMissing (v : Volser) (s : State) : State :=
  match s.homeOf v with
  | some (slot, _) => markMissing slot v s
  | none => s

/-- A retire-start request is granted for a HOME entry (R10). -/
def State.retireGranted (s : State) (slot : Nat) : Option HomeEntry :=
  match s.entry slot with
  | some e => if e.state = .home then some e else none
  | none => none

/-- A retire-finish request: a RETIRING entry that holds the volser becomes RETIRED (R10). -/
def retireFinish (slot : Nat) (v : Volser) (s : State) : State :=
  match s.entry slot with
  | some e => if e.volser = v && e.state = .retiring then setEntry slot { e with state := .retired } s else s
  | none => s

/-- The outcomes of an audit read that the Directory takes (R11). -/
inductive AuditOutcome where
  | slotEmpty
  | read (v : Volser)
  | unreadable
deriving DecidableEq, Repr

/-- An entry's state after an audit report (R11). -/
def HomeEntry.audited (e : HomeEntry) (o : AuditOutcome) : ReelState :=
  match e.state, o with
  | .home, .slotEmpty => .missing
  | .home, .read v => if v = e.volser then .home else .missing
  | .missing, .read v => if v = e.volser then .home else .missing
  | st, _ => st

/-- The Directory takes an audit report (R11). -/
def auditReport (slot : Nat) (o : AuditOutcome) (s : State) : State :=
  match s.entry slot with
  | some e => setEntry slot { e with state := e.audited o } s
  | none => s

/-- The finding of an audit read, from the entry as it stands and the outcome (R132). -/
def auditFinding (e : Option HomeEntry) (o : AuditOutcome) : Option Finding :=
  match e, o with
  | none, .slotEmpty => none
  | none, .read _ => some .unrecordedReel
  | none, .unreadable => some .unrecordedReel
  | some e, o =>
    match e.state, o with
    | .home, .slotEmpty => some .isEmpty
    | .home, .read v => if v = e.volser then none else some .wrongReel
    | .home, .unreadable => some .unreadable
    | .missing, .slotEmpty => none
    | .missing, .read v => if v = e.volser then some .recovered else some .wrongReel
    | .missing, .unreadable => some .unreadable
    | .out, .slotEmpty => none
    | .out, .read v => if v = e.volser then none else some .wrongReel
    | .out, .unreadable => some .unreadable
    | .retiring, .slotEmpty => none
    | .retiring, .read v => if v = e.volser then none else some .wrongReel
    | .retiring, .unreadable => some .unreadable
    | .retired, .slotEmpty => none
    | .retired, .read _ => some .unrecordedReel
    | .retired, .unreadable => some .unrecordedReel

/-- The lowest free position of the learnt table (R16). The first argument counts the positions still to try. -/
def freePosition {α : Type} (t : Table α) : Nat → Nat → Option Nat
  | 0, _ => none
  | k + 1, i => if (tableGet t i).isNone then some i else freePosition t k (i + 1)

/-- The entry with the least remaining lifetime, of equals the lowest position (R16). -/
def leastLifetime : Table LearntEntry → Option (Nat × LearntEntry)
  | [] => none
  | e :: t =>
    match leastLifetime t with
    | none => some e
    | some f => if f.2.lifetime < e.2.lifetime then some f else some e

/-- Where a new learnt entry goes: the lowest free position, or the one R16 replaces. -/
def State.learnPosition (s : State) : Nat :=
  match freePosition s.dir.learnt Config.learntPositions 0 with
  | some i => i
  | none => ((leastLifetime s.dir.learnt).map (·.1)).getD 0

/-- A HOLDING heard from another station is learnt, unless the catalogue holds the volser (R4, R15, R16). -/
def learn (src : Nat) (v : Volser) (slot pool : Nat) (ring : Bool) (carried : ReelState) (s : State) : State :=
  if (s.homeOf v).isSome || src = s.addr then s
  else
    let e : LearntEntry := ⟨v, src, slot, ring, pool, carried, s.timers.learntLifetime⟩
    let i := match s.learntOf v with
      | some (i, _) => i
      | none => s.learnPosition
    { s with dir := { s.dir with learnt := tablePut s.dir.learnt i e } }

end Sys2Proof.Machine
end

