-- ==== Sys2Proof/Machine/Cell.lean ====
section
/-! DEFINITION. The operator cell and the prompt queue (sections 8.1 and 8.2): asking for and giving back positions, posting,
ending and withdrawing prompts, and the frames of an escalated prompt (R168). -/

namespace Sys2Proof.Machine

/-! ### Cell positions (R153, R154) -/

/-- A position becomes RESERVED for the requester, which records it: an order's waiting-cell flag clears, a prompt becomes
QUEUED and its timers start (R154). -/
def grantCell (i : Nat) (h : Holder) (s : State) : State :=
  let s := setCell i (.reserved h) s
  match h with
  | .order n => updOrder n (fun o => { o with dstPos := some i, waitingCell := false }) s
  | .prompt n => updPrompt n (fun p => { p with cellPos := some i, stage := .queued, timerStart := some s.clock }) s

/-- The requester joins the end of the cell waiters (R154). -/
def waitCell (h : Holder) (s : State) : State :=
  let s := { s with prm := { s.prm with waiters := s.prm.waiters ++ [h] } }
  match h with
  | .order n => updOrder n (fun o => { o with waitingCell := true }) s
  | .prompt n => updPrompt n (fun p => { p with stage := .waitingCell, timerStart := none }) s

/-- A prompt or an order asks for a position (R154). -/
def askCell (h : Holder) (s : State) : State :=
  if s.prm.waiters.isEmpty then
    match s.emptyCell with
    | some i => grantCell i h s
    | none => waitCell h s
  else waitCell h s

/-- A position becomes EMPTY and is granted at once to the oldest cell waiter (R153, R154). -/
def freeCell (i : Nat) (s : State) : State :=
  match s.prm.waiters with
  | [] => setCell i .empty s
  | h :: rest => grantCell i h { s with prm := { s.prm with waiters := rest } }

/-- A waiter whose claim ends is struck from the list (R154). -/
def strikeWaiter (h : Holder) (s : State) : State :=
  { s with prm := { s.prm with waiters := s.prm.waiters.filter fun w => w != h } }

/-! ### Prompts (R155, R156, R168) -/

/-- A prompt of a kind for a volser, with nothing else set; its number and times are given on entry. -/
def Prompt.blank (k : PromptKind) (v : Volser) : Prompt where
  number := 0
  kind := k
  volser := v
  cause := none
  ringWanted := false
  cellPos := none
  slot := none
  drive := none
  mountId := none
  requestId := none
  posted := 0
  timerStart := none
  stage := .queued
  answer := .none
  notice := .none

/-- The number the next prompt receives (R156). -/
def State.nextPrompt (s : State) : Nat := freshNumber (s.prm.prompts.map (·.number)) s.prm.counter

/-- A prompt enters the queue with its number, its posted time and timer start, in QUEUED (R156). -/
def addPrompt (p : Prompt) (s : State) : State :=
  let n := s.nextPrompt
  { s with prm := { s.prm with
      prompts := s.prm.prompts ++ [{ p with
        number := n, posted := s.clock, timerStart := some s.clock, stage := .queued, answer := .none, notice := .none }]
      counter := wrapSucc 256 n } }

/-- FETCH and UNSERVED are the kinds that may wait with their posting (R156). -/
def PromptKind.isOpenKind : PromptKind → Bool
  | .fetch | .unserved => true
  | .ring | .unreadable | .misfile | .retire | .remove => false

/-- Live prompts of the kinds FETCH and UNSERVED. -/
def State.openPrompts (s : State) : Nat := (s.prm.prompts.filter fun p => p.kind.isOpenKind).length

/-- A FETCH or UNSERVED prompt enters the queue: a FETCH asks for a position (R154, R156), an UNSERVED lets its origin record
go (R49). -/
def enterPosting (p : Prompt) (s : State) : State :=
  let n := s.nextPrompt
  let s := addPrompt p s
  match p.kind with
  | .fetch => askCell (.prompt n) s
  | _ =>
    match p.requestId with
    | some id => sweepOrigins (updOrigin id (fun o => { o with promptWaits := false }) s)
    | none => s

/-- Whether a FETCH or UNSERVED posting enters at once: fewer than 20 of those kinds are live and none waits (R156, assumption
10). -/
def State.postingRoom (s : State) : Bool := decide (s.openPrompts < Config.openPromptPlaces) && s.prm.postings.isEmpty

/-- A FETCH or UNSERVED prompt is posted: it enters at once, or its posting waits (R156). -/
def postOpen (p : Prompt) (s : State) : State :=
  if s.postingRoom then enterPosting p s
  else { s with prm := { s.prm with postings := s.prm.postings ++ [p] } }

/-- The waiting posting made earliest enters when a place is free (R156). -/
def takePosting (s : State) : State :=
  match s.prm.postings with
  | [] => s
  | p :: rest =>
    if s.openPrompts < Config.openPromptPlaces then enterPosting p { s with prm := { s.prm with postings := rest } }
    else s

/-- A cell reel prompt is posted for the position a completed place hands over: the position becomes HOLDING with the order's
volser `v`, named by the prompt (R122, R153, R156). -/
def postCellReel (p : Prompt) (v : Volser) (i : Nat) (s : State) : State :=
  let n := s.nextPrompt
  setCell i (.holding (.prompt n) (some v)) (addPrompt { p with cellPos := some i } s)

/-- What clearing an ESCALATED prompt does on the line: PROMPT CLEARED when its NOTICE was sent, the waiting NOTICE discarded
when it was only offered (R168). -/
def clearEscalated (n : Nat) (s : State) : State :=
  match s.prompt n with
  | some p =>
    if p.stage = .escalated then
      let s' := updPrompt n (fun p => { p with notice := .none }) s
      match p.notice with
      | .sent => offerAll (.promptCleared n) s'
      | .offered =>
        { s' with line := { s'.line with waiting := s'.line.waiting.filter fun f =>
            match f.body with
            | .promptNotice m _ _ => m != n
            | _ => true } }
      | .none => s'
    else s
  | none => s

/-- A prompt leaves the queue (R155). -/
def removePrompt (n : Nat) (s : State) : State :=
  { s with prm := { s.prm with prompts := s.prm.prompts.filter fun p => p.number != n } }

/-- A prompt ends without handing its position on: PROMPT CLEARED if it was ESCALATED, its position freed, or its place among
the waiters struck (R153, R154, R168). -/
def endPrompt (n : Nat) (s : State) : State :=
  match s.prompt n with
  | some p =>
    let s := removePrompt n (clearEscalated n s)
    match p.cellPos with
    | some i => freeCell i s
    | none => strikeWaiter (.prompt n) s
  | none => s

/-- A prompt ends and its position passes to an order taken on its answer (R153, R160). -/
def handOver (n order : Nat) (s : State) : State :=
  match s.prompt n with
  | some p =>
    let s := removePrompt n (clearEscalated n s)
    match p.cellPos with
    | some i => setCell i (.holding (.order order) (some p.volser)) s
    | none => s
  | none => s

/-- The FETCH prompt of a mount is withdrawn, or its waiting posting taken back (R156, R166). -/
def withdrawFetch (id : ReqId) (s : State) : State :=
  let s := { s with prm := { s.prm with
    postings := s.prm.postings.filter fun p => !(p.kind = PromptKind.fetch && p.mountId = some id) } }
  match s.mountPrompt id .fetch with
  | some p => if p.answer = Answered.none then endPrompt p.number s else s
  | none => s

/-- The RING prompt of a mount ends with its record, no pick taking its position over (R110, R166). -/
def withdrawRing (id : ReqId) (s : State) : State :=
  match s.mountPrompt id .ring with
  | some p => if p.answer = Answered.none then endPrompt p.number s else s
  | none => s

/-- A prompt becomes REMOVE: number, position and place kept, mount id cleared, QUEUED with a new timer start (R164). -/
def becomeRemove (n : Nat) (s : State) : State :=
  updPrompt n (fun p => { p with
    kind := .remove, mountId := none, stage := .queued, timerStart := some s.clock, answer := .none, notice := .none })
    (clearEscalated n s)

end Sys2Proof.Machine
end

