-- ==== Sys2Proof/Machine/Credit.lean ====
section
/-! DEFINITION. The credit of an outbound lane (section 7.3): asking, granting, giving back, spending. -/

namespace Sys2Proof.Machine

/-- Whether a credit can be granted: the lane is OPEN with available credit (R139). -/
def SideRec.canGrant (r : SideRec) : Bool := r.outbound = .isOpen && decide (1 ≤ r.available)

/-- An order is granted a credit: available credit less 1, the order among the holders, its held credit set (R139). -/
def grantCredit (d : Side) (n : Nat) (s : State) : State :=
  updOrder n (fun o => { o with heldCredit := true })
    (updSide d (fun r => { r with available := r.available - 1, holders := r.holders ++ [n] }) s)

/-- An order whose to-location is a mouth asks for a credit (R139). The record of a side that is not fitted keeps its reset values, so
that nothing is asked of it (R135, assumption 41). -/
def askCredit (d : Side) (n : Nat) (s : State) : State :=
  if (s.side d).canGrant && (s.side d).requests.isEmpty then grantCredit d n s
  else if s.fitted d then updSide d (fun r => { r with requests := r.requests ++ [n] }) s
  else s

/-- Grant the listed requests, oldest first, while the lane can grant (R139). -/
def grantFrom (d : Side) : List Nat → State → State
  | [], s => s
  | n :: rest, s =>
    if (s.side d).canGrant then
      grantFrom d rest (grantCredit d n (updSide d (fun r => { r with requests := rest }) s))
    else s

/-- Grant the reservation requests as far as available credit allows (R139). -/
def grantCredits (d : Side) (s : State) : State := grantFrom d (s.side d).requests s

/-- A reservation is given back, or a request struck out (R139). -/
def giveBackCredit (d : Side) (n : Nat) (s : State) : State :=
  let s := updOrder n (fun o => { o with heldCredit := false }) s
  if n ∈ (s.side d).holders then
    grantCredits d (updSide d (fun r => { r with
      holders := dropFirst n r.holders
      available := if r.outbound = .agreeing then r.available else r.available + 1 }) s)
  else updSide d (fun r => { r with requests := dropFirst n r.requests }) s

/-- A reserved credit is spent by a completed place (R140); the order asks for nothing more. -/
def spendCredit (d : Side) (n : Nat) (s : State) : State :=
  updSide d (fun r => { r with holders := dropFirst n r.holders, requests := dropFirst n r.requests }) s

/-- Reservations withdrawn, newest first, from orders not yet issued, until the agreed capacity covers those left; each goes
back to the front of the requests, where its original request stood (R138). The first argument lists the holders, newest
first. -/
def withdrawFrom (d : Side) : List Nat → State → State
  | [], s => s
  | n :: older, s =>
    if (s.side d).reserved ≤ (s.side d).agreed then s
    else if s.seq.queue.any (fun o => o.number = n) then
      withdrawFrom d older (updOrder n (fun o => { o with heldCredit := false })
        (updSide d (fun r => { r with holders := dropFirst n r.holders, requests := n :: r.requests }) s))
    else withdrawFrom d older s

/-- Steps of R138 once the facing capacity is 1 or more, with the number of undelivered deposits to subtract. -/
def agreeLane (d : Side) (capacity occupancy undelivered : Nat) (s : State) : State :=
  let s := updSide d (fun r => { r with agreed := min (s.advertised d) capacity }) s
  let s := withdrawFrom d (s.side d).holders.reverse s
  let s := updSide d (fun r => { r with
    available := r.agreed - occupancy - r.reserved - undelivered
    outbound := if r.hold then .held else .isOpen }) s
  grantCredits d s

/-- A HELLO's capacity and occupancy for the lane that faces a side: the west neighbour's east inbound lane, the east
neighbour's west inbound lane (R138). -/
def HelloFields.facing (h : HelloFields) : Side → Nat × Nat
  | .west => (h.eastCapacity, h.eastOccupancy)
  | .east => (h.westCapacity, h.westOccupancy)

/-- A neighbour's HELLO is applied to a side: it acts only in AGREEING (R137, R138). -/
def applyHello (d : Side) (h : HelloFields) (undelivered : Nat) (s : State) : State :=
  if (s.side d).outbound = .agreeing then
    if (h.facing d).1 = 0 then updSide d (fun r => { r with available := 0 }) s
    else agreeLane d (h.facing d).1 (h.facing d).2 undelivered s
  else s

end Sys2Proof.Machine
end

