-- ==== Sys2Proof/Machine/Orders.lean ====
section
/-! DEFINITION. The order queue (sections 6.1 to 6.3): taking an offer, redirecting and removing, eligibility and choice, issue
on the arm port. -/

namespace Sys2Proof.Machine

/-- The phases of an issue, from the form and whether READ is enabled (R113). -/
def phasesOf (form : Form) (read : Bool) : List Phase :=
  match form with
  | .pick => if read then [.moveFrom, .grip, .read] else [.moveFrom, .grip]
  | .place => [.moveTo, .place]
  | .readOnly => [.moveFrom, .read]

/-- An order as a block offers it (R114): what it has not said is absent, and number and estimate are given when it is taken. -/
def ArmOrder.offer (purpose : Purpose) (read : Bool) (src dst : Loc) (queuedBy : Block) : ArmOrder where
  number := 0
  purpose := purpose
  form := .pick
  phases := phasesOf .pick read
  src := src
  dst := dst
  srcPos := none
  dstPos := none
  cls := none
  mountId := none
  volser := none
  estimate := 0
  heldCredit := false
  waitingCell := false
  laneRetry := false
  queuedBy := queuedBy
  faultTaken := false
  repeatUsed := false
  cellUse := .none
  routing := none

/-- Whether the order is one of the mount record it names: offered by the Mount Unit, or a lane pick that the Mount Unit's
match made a MOUNT LEG. A holder's pick, a relay and an orphan's are not (R105). -/
def ArmOrder.ofMount (o : ArmOrder) : Bool := o.queuedBy = .mount || (o.queuedBy = .lane && o.purpose = .mountLeg)

/-- The numbers the sequencer's orders hold. -/
def State.orderNumbers (s : State) : List Nat := s.orders.map (·.number)

/-- The number the next order receives (R114). -/
def State.nextOrder (s : State) : Nat := freshNumber s.orderNumbers s.seq.counter

/-- The order asks for what its to-location requires: a position in the cell, or a credit at a mouth (R114). -/
def askDst (dst : Loc) (n : Nat) (s : State) : State :=
  match dst with
  | .cell => askCell (.order n) s
  | .mouth d => askCredit d n s
  | .slot _ | .drive _ => s

/-- An offer is taken into the queue: number, estimate, the prompt's position taken over, and its requests (R114). -/
def takeOrder (o : ArmOrder) (prompt : Option Nat) (s : State) : State :=
  let n := s.nextOrder
  let o := { o with number := n, estimate := s.legEstimate o.src o.dst }
  let s := { s with seq := { s.seq with queue := s.seq.queue ++ [o], counter := wrapSucc 256 n } }
  let s := match prompt with
    | some p => handOver p n s
    | none => s
  if o.form = .readOnly then s else askDst o.dst n s

/-- Whether a waiting offer is one that ORDER OFFER TAKEN takes; a local sourcing is no offer yet and is its own event (R97, R114,
assumption 11). -/
def WaitingOffer.isOrder : WaitingOffer → Bool
  | .order _ _ _ | .laneHead _ => true
  | .sourceLocal _ => false

/-- Whether a new offer is taken at once: fewer than 12 orders are queued and no offer made earlier waits (R114, assumption 10). -/
def State.orderRoom (s : State) : Bool :=
  decide (s.seq.queue.length < Config.orderPlaces) && !s.seq.waiting.any WaitingOffer.isOrder

/-- An offer waits for room (R114). A prompt whose answer led to it holds the answer (R160). -/
def waitOffer (w : WaitingOffer) (s : State) : State :=
  { s with seq := { s.seq with waiting := s.seq.waiting ++ [w] } }

/-- The prompt records the answer it holds (R160). -/
def holdAnswer (prompt : Option Nat) (a : Answered) (s : State) : State :=
  match prompt with
  | some p => updPrompt p (fun q => { q with answer := a }) s
  | none => s

/-- Give back what an order holds or has asked for at its to-location (R115). -/
def releaseDst (o : ArmOrder) (s : State) : State :=
  match o.dst with
  | .cell =>
    match o.dstPos with
    | some i => freeCell i (updOrder o.number (fun o => { o with dstPos := none }) s)
    | none => strikeWaiter (.order o.number) (updOrder o.number (fun o => { o with waitingCell := false }) s)
  | .mouth d => giveBackCredit d o.number s
  | .slot _ | .drive _ => s

/-- Give back the cell position an order holds at its from-location (R122). -/
def releaseSrc (o : ArmOrder) (s : State) : State :=
  match o.srcPos with
  | some i => freeCell i (updOrder o.number (fun o => { o with srcPos := none }) s)
  | none => s

/-- Whether a place order has been issued, so that it can no longer be redirected (R115). -/
def State.placeIssued (s : State) (o : ArmOrder) : Bool :=
  o.form = .place && (s.seq.arm = .busy || s.seq.arm = .fault)

/-- An order's to-location is replaced: the old one's reservation is given back and the new one asks for its own, from the cell to
the cell too (R115). -/
def redirect (n : Nat) (dst : Loc) (use : CellUse) (routing : Option Routing) (s : State) : State :=
  match s.order n with
  | some o =>
    let change := fun (o : ArmOrder) => { o with dst := dst, cellUse := use, routing := routing, laneRetry := false }
    askDst dst n (updOrder n change (releaseDst o s))
  | none => s

/-- A queued order is removed: it leaves the queue and its reservations are given back (R115). -/
def removeOrder (n : Nat) (s : State) : State :=
  match s.seq.queue.find? fun o => o.number = n with
  | some o =>
    let s := releaseSrc o (releaseDst o s)
    { s with seq := { s.seq with queue := s.seq.queue.filter fun o => o.number != n } }
  | none => s

/-! ### Choosing (R120, R121) -/

/-- Whether an order touches the cell, by either of its ends; a place keeps the ends of its pick (R121, R123, assumption 66). -/
def ArmOrder.touchesCell (o : ArmOrder) : Bool := o.src = .cell || o.dst = .cell

/-- Whether an order's to-location is a mouth. -/
def ArmOrder.toMouth (o : ArmOrder) : Bool :=
  match o.dst with
  | .mouth _ => true
  | _ => false

/-- Whether an order may be issued (R121). -/
def State.eligible (s : State) (o : ArmOrder) : Bool :=
  !(o.touchesCell && s.prm.doorOpen) && !o.waitingCell && !(o.toMouth && !o.heldCredit) && !o.laneRetry

/-- An order's rank among the queued, 2 to 6 (R120), an order that its table does not name by its purpose ranking by its from-location
(assumption 79). -/
def ArmOrder.rank (o : ArmOrder) : Nat :=
  match o.purpose, o.src with
  | .audit, _ => 6
  | .cell, _ => 5
  | _, .mouth _ => 2
  | _, .drive _ => 3
  | _, .cell => 5
  | _, .slot _ => 4

/-- Whether an order goes before another whatever their age: its rank is lower, or both are of rank 4 and its class is lower (R120). -/
def ArmOrder.before (p o : ArmOrder) : Bool :=
  p.rank < o.rank || (p.rank = 4 && o.rank = 4 && p.cls.getD 0 < o.cls.getD 0)

/-- The first order that no other goes before. -/
def firstByRank : List ArmOrder → Option ArmOrder
  | [] => none
  | o :: t =>
    match firstByRank t with
    | none => some o
    | some p => if p.before o then some p else some o

/-- The queued order R120 chooses. -/
def State.choice (s : State) : Option ArmOrder := firstByRank (s.seq.queue.filter s.eligible)

/-- ORDER is sent for the order in the arm position, A becomes its to-location and the arm becomes BUSY (R83, R116). -/
def issue (o : ArmOrder) (s : State) : State :=
  let s := sendArm (.order o.number o.phases (s.locPoint o.src) o.srcPos (s.locPoint o.dst) o.dstPos) s
  { s with seq := { s.seq with inArm := some o, arm := .busy, repeatSent := false, ref := some (s.locPoint o.dst) } }

/-- The sequencer issues the order it can: the place in hand while HOLDING, the choice of R120 while IDLE (R116, R120). -/
def selectArm (s : State) : State :=
  match s.seq.arm with
  | .holding =>
    match s.seq.inArm with
    | some o => if s.eligible o then issue o s else s
    | none => s
  | .idle =>
    match s.choice with
    | some o =>
      issue o { s with seq := { s.seq with queue := s.seq.queue.filter fun p => p.number != o.number } }
    | none => s
  | .busy => s
  | .fault => s

/-- The arm position is emptied. -/
def leaveArm (a : ArmState) (s : State) : State := { s with seq := { s.seq with inArm := none, arm := a } }

/-- The order in the arm position leaves the sequencer without having reached its to-location: what it holds or has asked for at its
ends is given back (R115, R117, R122, R124). -/
def abandonOrder (o : ArmOrder) (a : ArmState) (s : State) : State := leaveArm a (releaseSrc o (releaseDst o s))

end Sys2Proof.Machine
end

