-- ==== Sys2Proof/Machine/Account.lean ====
section
/-! DEFINITION. The Accounting Unit (chapter 10): the charge of a closed mount, the account update, the accounting record and
its bytes, the spool and its state. -/

namespace Sys2Proof.Machine

/-- The base fee and time rate of a class (R180). -/
def Settings.rate (c : Settings) : Nat → Rate
  | 0 => c.rate0
  | 1 => c.rate1
  | 2 => c.rate2
  | _ => c.rate3

/-- The outcome fixed at closure (R110, step 4). -/
def MountRec.outcome (m : MountRec) : ClosedOutcome :=
  if m.reachedMounted && !m.cancelPending then .dismounted
  else if m.failure.isSome then .failed
  else .cancelled

/-- The hold time: unload time less ready time when both are present, and 0 otherwise (R103, R181, R187). -/
def holdSeconds : Option Nat → Option Nat → Nat
  | some r, some u => u - r
  | _, _ => 0

/-- The time term: h × T ÷ 60, rounded up (R181). -/
def timeTerm (hold rate : Nat) : Nat := (hold * rate + 59) / 60

/-- The surcharges of R181: hops, shelf fetch, inserted ring. -/
def surcharges (c : Settings) (hops : Nat) (manual inserted : Bool) : Nat :=
  hops * c.hopCharge + (if manual then c.shelfCharge else 0) + (if inserted then c.ringCharge else 0)

/-- The exact charge of a closed mount (R181). -/
def exactCharge (c : Settings) (m : MountRec) : Nat :=
  match m.outcome with
  | .dismounted =>
    (c.rate m.cls).fee + timeTerm (holdSeconds m.readyTime m.unloadTime) (c.rate m.cls).time
      + surcharges c m.hops m.manual (m.ring = .inserted)
  | .cancelled => surcharges c m.hops m.manual (m.ring = .inserted)
  | .failed => 0

/-- The account an account number names (R183). -/
def State.account (s : State) (n : Nat) : Account := (tableGet s.acct.accounts n).getD Account.zero

/-- Change one account (R183). -/
def updAccount (n : Nat) (f : Account → Account) (s : State) : State :=
  { s with acct := { s.acct with accounts := tableSet Account.zero s.acct.accounts n (f (s.account n)) } }

/-- An account after a closure (R185). -/
def Account.closed (a : Account) (outcome : ClosedOutcome) (charge actions : Nat) : Account where
  mounts := if outcome = .dismounted then satAdd Config.top16 a.mounts 1 else a.mounts
  cancels := if outcome = .cancelled then satAdd Config.top16 a.cancels 1 else a.cancels
  operatorActions := satAdd Config.top16 a.operatorActions actions
  charge := satAdd Config.top32 a.charge charge
  saturated := a.saturated || decide (Config.top32 < a.charge + charge)
  openMounts := a.openMounts - 1

/-- The accounting record of a closed mount; a time that the mount does not have is absent, the other is kept (R187). -/
def accountRecord (sequence globalDrive : Nat) (c : Settings) (m : MountRec) : AcctRecord where
  sequence := sequence
  mountId := m.id
  volser := m.volser
  pool := m.pool
  account := m.account
  cls := m.cls
  globalDrive := globalDrive
  outcome := m.outcome
  reason := m.failure
  hops := m.hops
  operatorActions := m.operatorActions
  manual := m.manual
  ringInserted := m.ring = .inserted
  saturated := Config.topCharge < exactCharge c m
  readyTime := m.readyTime
  unloadTime := m.unloadTime
  counts := m.counts
  charge := min (exactCharge c m) Config.topCharge

/-- The outcome codes of the accounting record (section 11.7). -/
def ClosedOutcome.code : ClosedOutcome → Nat
  | .dismounted => 1
  | .cancelled => 2
  | .failed => 3

/-- The 44 bytes of an accounting record (section 11.7). -/
def AcctRecord.bytes (r : AcctRecord) : List Byte :=
  bytes16 r.sequence ++ r.mountId.bytes ++ r.volser.bytes
    ++ [byteOf r.pool, byteOf r.account, byteOf r.cls, byteOf r.globalDrive, byteOf r.outcome.code,
      byteOf ((r.reason.map FailReason.code).getD 0), byteOf r.hops, byteOf r.operatorActions, byteOf r.flags]
    ++ bytes32 (r.readyTime.getD 0) ++ bytes32 (r.unloadTime.getD 0) ++ bytes32 (holdSeconds r.readyTime r.unloadTime)
    ++ countBytes r.counts ++ bytes24 r.charge

/-- The spool state is evaluated; entering DRAIN WANTED or WITHDRAWN posts its notice (R189). -/
def evalSpool (s : State) : State :=
  let next := spoolNext s.acct.spoolState s.held s.live s.settings.high s.settings.low
  if next = s.acct.spoolState then s
  else
    let s' := { s with acct := { s.acct with spoolState := next } }
    if next = .normal then s' else postAcct (.drainWanted next s.held s.live) s'

/-- A mount record that has left the mount table is priced, charged to its account and spooled (R181 to R189). -/
def accountFor (m : MountRec) (s : State) : State :=
  let r := accountRecord s.acct.counter (s.globalDrive m.drive) s.settings m
  let s := updAccount m.account (fun a => a.closed r.outcome r.charge r.operatorActions) s
  evalSpool { s with acct := { s.acct with
    spool := s.acct.spool ++ [r]
    counter := wrapSucc 65536 s.acct.counter } }

end Sys2Proof.Machine
end

