-- ==== Sys2Proof/Machine/Origins.lean ====
section
/-! DEFINITION. The originator's side of a request (chapter 3): its end (R49), locating (R51), its RESULT (R65, R66, R71). -/

namespace Sys2Proof.Machine

/-- A request ends: its timers stop, its bid list empties and its MOUNT RESULT notice is built; the record keeps its place until
the notice has entered the report FIFO, and for UNSERVED until the prompt has entered the prompt queue too (R49). -/
def endRequest (id : ReqId) (e : Ending) (s : State) : State :=
  match s.origin id with
  | some o =>
    postNeg (.mountResult id o.tag o.volser e)
      (updOrigin id (fun o => { o with
        bids := []
        locateWindow := none
        bidWindow := none
        awardAnswer := none
        watch := none
        ended := some e
        noticeWaits := true
        promptWaits := decide (e = .failed .unserved) }) s)
  | none => s

/-- A request ends FAILED UNSERVED and its UNSERVED prompt is posted (R61). -/
def endUnserved (id : ReqId) (s : State) : State :=
  match s.origin id with
  | some o =>
    postOpen { Prompt.blank .unserved o.volser with requestId := some id } (endRequest id (.failed .unserved) s)
  | none => s

/-- LOCATE is broadcast: attempts go up by 1, and the window starts when the frame enters the queue (R51). -/
def sendLocate (id : ReqId) (s : State) : State :=
  match s.origin id with
  | some o =>
    offerAll (.locate id o.volser)
      (updOrigin id (fun o => { o with locateAttempts := o.locateAttempts + 1, locateWindow := none }) s)
  | none => s

/-- A record becomes LOCATING with locate attempts 0, and LOCATE is broadcast (R50, R66). -/
def startLocating (id : ReqId) (s : State) : State :=
  sendLocate id (updOrigin id (fun o => { o with state := .locating, locateAttempts := 0 }) s)

/-- The first RESULT FAILED STALE sends the request back to locating (R66). -/
def staleRetry (id : ReqId) (s : State) : State :=
  match s.origin id with
  | some o =>
    startLocating id (updOrigin id (fun o => { o with staleRetries := 1, awardee := none, watch := none, loc := none })
      (forgetVolser o.volser s))
  | none => s

/-- How a RESULT ends an AWARDED record's request (R65). -/
def resultEnding (k : ResultKind) (globalDrive : Nat) : Ending :=
  match k with
  | .mounted => .mounted globalDrive false
  | .failed r => .failed (.awardee r)
  | .cancelled => .cancelled
  | .tooLate => .mounted globalDrive true

/-- How a RESULT ends a CANCELLING record's request (R71). -/
def resultEndingCancelling (k : ResultKind) (globalDrive : Nat) : Ending :=
  match k with
  | .mounted => .mounted globalDrive true
  | .failed r => .failed (.awardee r)
  | .cancelled => .cancelled
  | .tooLate => .mounted globalDrive true

/-- A RESULT taken from a station (R65, R66, R67, R71). A first FAILED STALE makes the Directory forget the volser, and in CANCELLING
the request still ends (R17, R71). -/
def onResult (src : Nat) (id : ReqId) (k : ResultKind) (globalDrive : Nat) (s : State) : State :=
  match s.origin id with
  | some o =>
    if o.awardee = some src then
      match o.state with
      | .awarded =>
        if k = .failed .stale ∧ o.staleRetries = 0 then staleRetry id s
        else endRequest id (resultEnding k globalDrive) s
      | .cancelling =>
        endRequest id (resultEndingCancelling k globalDrive)
          (if k = .failed .stale ∧ o.staleRetries = 0 then forgetVolser o.volser s else s)
      | .locating | .offered | .awarding => s
    else s
  | none => s

end Sys2Proof.Machine
end

