-- ==== Sys2Proof/Machine/Returns.lean ====
section
/-! DEFINITION. How a mount record ends and how its reel turns back: closure (R110), the return destination (R108), turning back
(R107), REVOKE (R62). -/

namespace Sys2Proof.Machine

/-! ### Drives given up -/

/-- A drive that its record gives up before any reel reached it: ALLOCATED becomes FREE, OFFLINE keeps its state; the mount id
goes (R91, R104, R110). -/
def DriveRec.released (r : DriveRec) : DriveRec :=
  { r with state := if r.state = .allocated then .free else r.state, mountId := none }

/-- A drive whose reel has been taken off it: EMPTYING becomes FREE, OFFLINE keeps its state (R91, R92). -/
def DriveRec.emptied (r : DriveRec) : DriveRec :=
  { r with state := if r.state = .emptying then .free else r.state, mountId := none, aboard := .none }

/-- The record gives up its drive (R95, R107, R110). -/
def releaseDrive (id : ReqId) (s : State) : State :=
  match s.mount id with
  | some m =>
    if m.driveHeld then
      updDrive m.drive DriveRec.released (updMount id (fun m => { m with driveHeld := false }) s)
    else s
  | none => s

/-- The pick-back of a record has taken the reel off the drive, or has found none: a drive that the record holds, or none does, is freed
(R91, R92). A drive that another record holds by now only loses the reel (assumption 17). -/
def emptyDrive (d : Nat) (id : ReqId) (s : State) : State :=
  match s.drive d with
  | some r =>
    if r.mountId = some id then
      updMount id (fun m => { m with driveHeld := false }) (updDrive d DriveRec.emptied s)
    else
      updMount id (fun m => { m with reelLeft := false })
        (updDrive d (if r.mountId = none then DriveRec.emptied else fun r => { r with aboard := .none }) s)
  | none => s

/-! ### Closure -/

/-- The record's local sourcing no longer waits for room (R107, assumption 11). -/
def dropSourcing (id : ReqId) (s : State) : State :=
  { s with seq := { s.seq with waiting := s.seq.waiting.filter fun w => w != .sourceLocal id } }

/-- A mount record closes: its drive is released, its waiting prompts withdrawn, and it is handed to the Accounting Unit and
leaves the mount table; a reserved estimate goes with it (R110). -/
def closeRecord (id : ReqId) (s : State) : State :=
  let s := withdrawRing id (withdrawFetch id (dropSourcing id (releaseDrive id s)))
  match s.mount id with
  | some m => accountFor m (dropMount id s)
  | none => s

/-! ### The way home -/

/-- The routing record a mount record supplies when its reel goes home by lane (R108, R136). -/
def MountRec.homeRouting (m : MountRec) (home : Nat) : Routing where
  volser := m.volser
  mountId := m.id
  purpose := .toHome
  destination := some home
  ring := m.ring != .absent
  pool := m.pool
  hops := m.hops
  counts := m.counts

/-- Where a leg goes, what prompt its place into the cell calls for, and the routing record that travels with it. -/
structure Destination where
  dst : Loc
  cellUse : CellUse
  routing : Option Routing
deriving DecidableEq, Repr

/-- The cell, with a REMOVE prompt when the place completes. -/
def Destination.remove : Destination := ⟨.cell, .remove, none⟩

/-- The return destination of a record's reel; for a home here `slot` is the slot decided on, absent when the return check has
failed (R108). -/
def State.returnDest (s : State) (m : MountRec) (slot : Option Nat) : Destination :=
  match m.home with
  | none => .remove
  | some a =>
    if a = s.addr then
      match slot with
      | some n => ⟨.slot n, .none, none⟩
      | none => .remove
    else ⟨.mouth (s.toward a), .none, some (m.homeRouting a)⟩

/-- The return destination with the return check made now: at a redirect, and for a reel lying in the cell (R7, R108). -/
def State.checkedDest (s : State) (m : MountRec) : Destination := s.returnDest m (s.returnCheck m.volser)

/-- The return destination of a pick-back, whose check is made when the pick completes (R7, R108). -/
def State.pickBackDest (s : State) (m : MountRec) : Destination := s.returnDest m (some m.homeSlot)

/-- An order to a destination. -/
def ArmOrder.toDest (o : ArmOrder) (d : Destination) : ArmOrder :=
  { o with dst := d.dst, cellUse := d.cellUse, routing := d.routing }

/-- A block offers an order: it is taken at once while there is room, and otherwise waits, its prompt holding the answer (R114,
R160). -/
def offerOrder (o : ArmOrder) (prompt : Option Nat) (answer : Answered) (s : State) : State :=
  if s.orderRoom then takeOrder o prompt s
  else waitOffer (.order o prompt none) (holdAnswer prompt answer s)

/-- The pick from the cell that takes home the reel under a record's RING prompt: the prompt is cleared, the drive released, the
stage RETURNING, and the RETURN LEG pick, without READ, takes over the position (R107 case 4, R163, R166). -/
def ringReturn (id : ReqId) (p : Prompt) (s : State) : State :=
  let s := releaseDrive id (updMount id (fun m => { m with turningBack := true, stage := .returning })
    (clearEscalated p.number s))
  match s.mount id with
  | some m =>
    let o := ArmOrder.offer .returnLeg false .cell .cell .mount
    offerOrder ({ o with srcPos := p.cellPos, mountId := some id, volser := some m.volser }.toDest (s.checkedDest m))
      (some p.number) .cannot s
  | none => s

/-! ### Turning back (R107) -/

/-- The order of a record in the sequencer. -/
def State.orderOf (s : State) (id : ReqId) : Option ArmOrder :=
  s.orders.find? fun o => o.mountId = some id && o.ofMount

/-- Whether the sequencer itself has sent the order's reel to the cell, so that it refuses a redirect (R126). -/
def ArmOrder.diverted (o : ArmOrder) : Bool :=
  match o.cellUse with
  | .wrongLabel _ | .slotOccupied | .unreadable => true
  | .none | .ring | .remove | .retire => false

/-- Case 3: the leg toward the drive or the cell takes the return destination, the drive is released and the stage becomes
RETURNING; a place onto the drive already issued cannot be changed, and the drive is then kept (R107, R115). -/
def turnLeg (id : ReqId) (s : State) : State :=
  let home := fun (s : State) => releaseDrive id (updMount id (fun m => { m with stage := .returning }) s)
  match s.orderOf id, s.mount id with
  | some o, some m =>
    if s.placeIssued o then
      match o.dst with
      | .drive _ => s
      | .slot _ | .mouth _ | .cell => home s
    else if o.diverted then home s
    else
      let d := s.checkedDest m
      redirect o.number d.dst d.cellUse d.routing (home s)
  | _, _ => home s

/-- A waiting pick on an answered prompt of the record takes the return destination, and RETURNING as the stage its record
enters when it is taken (R107 case 5). -/
def WaitingOffer.turned (id : ReqId) (d : Destination) (w : WaitingOffer) : WaitingOffer :=
  match w with
  | .order o (some p) _ => if o.mountId = some id then .order (o.toDest d) (some p) (some .returning) else w
  | .order _ none _ | .laneHead _ | .sourceLocal _ => w

/-- Case 5: the pick that waits on an answer is turned and the drive released (R107). -/
def turnWaiting (id : ReqId) (s : State) : State :=
  match s.mount id with
  | some m =>
    let d := s.checkedDest m
    releaseDrive id { s with seq := { s.seq with waiting := s.seq.waiting.map (WaitingOffer.turned id d) } }
  | none => s

/-- Whether a prompt of the record holds an answer whose pick waits for room (R107 case 5, R160). -/
def State.answerHeld (s : State) (id : ReqId) : Bool :=
  s.prm.prompts.any fun p => p.mountId = some id && p.answer != Answered.none

/-- A record turns back (R107). -/
def turnBack (id : ReqId) (s : State) : State :=
  match s.mount id with
  | some m =>
    if m.turningBack then s
    else
      let s' := updMount id (fun m => { m with turningBack := true }) s
      match m.stage with
      | .loading | .mounted | .returning => s
      | .sourcing =>
        if s.answerHeld id then turnWaiting id s'
        else
          match m.home with
          | some a => if a = s.addr then closeRecord id s' else releaseDrive id s'
          | none => closeRecord id s'
      | .toDrive => if s.answerHeld id then turnWaiting id s' else turnLeg id s'
      | .ring =>
        if s.answerHeld id then turnWaiting id s'
        else
          match s.mountPrompt id .ring with
          | some p => ringReturn id p s'
          | none => turnLeg id s'
  | none => s

/-! ### REVOKE (R62) -/

/-- A failure reason is recorded when the record has none (R106). -/
def noteFailure (id : ReqId) (r : FailReason) (s : State) : State :=
  updMount id (fun m => { m with failure := some (m.failure.getD r) }) s

/-- Whether nothing has yet been set moving for a record: no order, no FETCH, no answer held (R62). -/
def State.untouched (s : State) (m : MountRec) : Bool :=
  m.stage = .sourcing && !s.answerHeld m.id
    && (match m.home with | none => true | some a => a = s.addr)

/-- A record for which nothing has been set moving ends at once as FAILED REVOKED, with charge 0 (R62). -/
def closeRevoked (id : ReqId) (s : State) : State := closeRecord id (noteFailure id .revoked s)

/-- A REVOKE taken from a station (R62). -/
def onRevoke (src : Nat) (id : ReqId) (s : State) : State :=
  let s := dropBid id s
  match s.mount id with
  | some m =>
    if m.originator ≠ src ∨ m.reachedMounted then s
    else if s.untouched m then closeRevoked id s
    else turnBack id (noteFailure id .revoked (updMount id (fun m => { m with cancelPending := true }) s))
  | none => s

end Sys2Proof.Machine
end

