-- ==== Sys2Proof/Machine/Awards.lean ====
section
/-! DEFINITION. Offers, estimates, bids and awards (chapters 3 and 4): the qualifying station, its estimate and drive, the offer
round, the accept check, and the answers to an award. -/

namespace Sys2Proof.Machine

/-! ### The estimate (chapter 4) -/

/-- The entry point of a request for a location (R78). -/
def State.entryLoc (s : State) (loc : ReelLocation) : Loc :=
  match loc.station with
  | none => .cell
  | some a => if a = s.addr then .slot loc.slot else .mouth (s.toward a)

/-- The lane passes between a location and this station (R78). -/
def State.hopsTo (s : State) (loc : ReelLocation) : Nat :=
  match loc.station with
  | none => 0
  | some a => absDiff s.addr a

/-- Whether a local drive lies within a drive spec (R54, R80). -/
def State.inSpec (s : State) (spec : DriveSpec) (d : Nat) (r : DriveRec) : Bool :=
  match spec with
  | .drive g => g / 8 = s.addr && g % 8 = d
  | .group g => r.group = some g

/-- The local numbers of the drives that qualify, ascending (R80). -/
def State.qualifying (s : State) (spec : DriveSpec) : List Nat :=
  (List.range s.mnt.drives.length).filter fun d =>
    match s.drive d with
    | some r => r.isFree && s.inSpec spec d r
    | none => false

/-- The first number of a list with the least value. -/
def leastBy (f : Nat → Nat) : List Nat → Option Nat
  | [] => none
  | d :: t =>
    match leastBy f t with
    | none => some d
    | some e => if f e < f d then some e else some d

/-- The drive chosen: the least travel from the entry point, of equals the lowest number (R80). -/
def State.chooseDrive (s : State) (spec : DriveSpec) (loc : ReelLocation) : Option Nat :=
  leastBy (fun d => s.travel (s.locPoint (s.entryLoc loc)) (s.drivePoint d)) (s.qualifying spec)

/-- The ring term (R79). -/
def ringTerm (penalty : Nat) (write : Bool) (loc : ReelLocation) : Nat :=
  if write && (loc.station.isNone || !loc.ring) then penalty else 0

/-- The exact sum of the eight terms (R81). -/
def State.exactEstimate (s : State) (write : Bool) (loc : ReelLocation) (d : Nat) : Nat :=
  let e := s.locPoint (s.entryLoc loc)
  s.work + s.travel s.armRef e + s.settings.gp + s.travel e (s.drivePoint d) + s.settings.gp
    + s.hopsTo loc * s.settings.hp
    + (if loc.station.isNone then s.settings.mp else 0)
    + ringTerm s.settings.rp write loc

/-- The estimate (R81). -/
def State.estimate (s : State) (write : Bool) (loc : ReelLocation) (d : Nat) : Nat :=
  min (s.exactEstimate write loc d) Config.topEstimate

/-- The reserved estimate of a mount: entry point to drive, plus 2 × G (R85). -/
def State.reservedEstimate (s : State) (loc : ReelLocation) (d : Nat) : Nat :=
  s.travel (s.locPoint (s.entryLoc loc)) (s.drivePoint d) + 2 * s.settings.gp

/-! ### Qualifying and bidding (R54, R55, R56) -/

/-- The lane condition of R54. -/
def State.laneOpen (s : State) (loc : ReelLocation) : Bool :=
  match loc.station with
  | none => true
  | some a => a = s.addr || (s.side (s.toward a)).outbound = .isOpen

/-- The bid table has a place for a request (R54). -/
def State.bidRoom (s : State) (id : ReqId) : Bool :=
  decide (s.neg.bids.length < Config.bidPlaces) || s.neg.bids.any fun b => b.id = id

/-- The drive this station bids, when it qualifies (R54, R80). -/
def State.qualifies (s : State) (id : ReqId) (spec : DriveSpec) (loc : ReelLocation) : Option Nat :=
  if s.host.state = .running ∧ s.acct.spoolState ≠ .withdrawn ∧ s.seq.arm ≠ .fault
      ∧ s.laneOpen loc = true ∧ s.bidRoom id = true then
    s.chooseDrive spec loc
  else none

/-- A bid record is made or replaced (R55). -/
def recordBid (id : ReqId) (s : State) : State :=
  { s with neg := { s.neg with
      bids := s.neg.bids.filter (fun b => b.id != id) ++ [⟨id, s.timers.bidWindow + s.timers.awardAnswer⟩] } }

/-- A bid inserted in ascending order of estimate, then of station (R56). -/
def insertBid (b : Bid) : List Bid → List Bid
  | [] => [b]
  | c :: t =>
    if b.estimate < c.estimate ∨ (b.estimate = c.estimate ∧ b.station < c.station) then b :: c :: t
    else c :: insertBid b t

/-- A BID taken: it enters the list of a record in OFFERED, replacing its station's entry (R56). -/
def onBid (src : Nat) (id : ReqId) (estimate drive : Nat) (s : State) : State :=
  match s.origin id with
  | some o =>
    if o.state = .offered then
      updOrigin id (fun o => { o with
        bids := insertBid ⟨src, estimate, drive⟩ (o.bids.filter fun b => b.station != src) }) s
    else s
  | none => s

/-- Send a BID to the originator; to this station itself it is taken at once (R45, R54). -/
def sendBid (id : ReqId) (estimate drive : Nat) (s : State) : State :=
  if id.station = s.addr then onBid s.addr id estimate drive s
  else offerTo id.station (.bid id estimate drive) s

/-- A station that qualifies makes its bid record and sends its BID (R54, R82, R87). -/
def bidFor (id : ReqId) (write : Bool) (spec : DriveSpec) (loc : ReelLocation) (s : State) : State :=
  match s.qualifies id spec loc with
  | some d => sendBid id (s.estimate write loc d) d (recordBid id s)
  | none => s

/-! ### The offer round (R53) -/

/-- What an OFFER and an AWARD say of a request. -/
def OriginRec.terms (o : OriginRec) : RequestTerms where
  volser := o.volser
  write := o.write
  cls := o.cls
  account := o.account
  loc := o.loc.getD ⟨none, 0, false, 0⟩

/-- An offer round begins: OFFER is broadcast, and the originator enters its own bid if it qualifies (R53). -/
def offerRound (id : ReqId) (round : Nat) (s : State) : State :=
  let s := updOrigin id (fun o => { o with
    state := .offered, round := round, bids := [], awardsMade := 0, bidWindow := none, locateWindow := none }) s
  match s.origin id with
  | some o =>
    bidFor id o.write o.spec o.terms.loc (offerAll (.offer id o.terms o.spec) s)
  | none => s

/-- The request's location is set and offer round 1 begins (R50, R51, R52). -/
def offerAt (id : ReqId) (loc : ReelLocation) (s : State) : State :=
  offerRound id 1 (updOrigin id (fun o => { o with loc := some loc }) s)

/-- The location SHELF (R47), with the ring carried as absent (R79). -/
def ReelLocation.shelf : ReelLocation := ⟨none, 0, false, 0⟩

/-- How a reel that is not HOME ends a request (R50, R52). -/
def ReelState.ending : ReelState → Option EndReason
  | .home => none
  | .out => some .inUse
  | .retiring | .retired => some .retired
  | .missing => some .missing

/-- The lookup of a new record (R50). -/
def lookupNew (id : ReqId) (v : Volser) (s : State) : State :=
  match s.lookup v with
  | .home slot e =>
    match e.state.ending with
    | none => offerAt id ⟨some s.addr, slot, e.ring, e.pool⟩ s
    | some r => endRequest id (.failed r) s
  | .learnt e =>
    if e.carried = .home then offerAt id ⟨some e.holder, e.slot, e.ring, e.pool⟩ s else startLocating id s
  | .unknown => startLocating id s

/-- A HOLDING addressed to this station, at the Negotiation Unit (R52). -/
def onHolding (src : Nat) (id : ReqId) (v : Volser) (slot pool : Nat) (ring : Bool) (st : ReelState) (s : State) : State :=
  match s.origin id with
  | some o =>
    if o.state = .locating ∧ o.volser = v then
      match st.ending with
      | none => offerAt id ⟨some src, slot, ring, pool⟩ s
      | some r => endRequest id (.failed r) s
    else s
  | none => s

/-! ### The awardee's side (R58) -/

/-- The first failing check of R58. -/
def State.awardRefusal (s : State) (id : ReqId) (d : Nat) : Option DeclineReason :=
  if s.host.state ≠ .running ∨ s.seq.arm = .fault then some .quiesced
  else if ((s.drive d).map DriveRec.isFree).getD false = false then some .driveTaken
  else if Config.withdrawLevel ≤ s.held + s.live then some .spool
  else if (s.mount id).isSome then some .idInUse
  else if Config.mountPlaces ≤ s.live then some .tableFull
  else none

/-- A mount record as it is made (R95). -/
def MountRec.make (id : ReqId) (t : RequestTerms) (drive reserved : Nat) : MountRec where
  id := id
  originator := id.station
  volser := t.volser
  pool := t.loc.pool
  account := t.account
  cls := t.cls
  write := t.write
  drive := drive
  driveHeld := true
  reelLeft := false
  home := t.loc.station
  homeSlot := t.loc.slot
  hops := 0
  ring := if t.loc.station.isSome && t.loc.ring then .present else .absent
  manual := false
  stage := .sourcing
  turningBack := false
  cancelPending := false
  failure := none
  resultSent := .none
  reachedMounted := false
  readyTime := none
  unloadTime := none
  counts := none
  operatorActions := 0
  reserved := some reserved
  arrivalLimit := none
  loadWait := none

/-- Steps 1 to 4 of the accept: the record, the drive, the reserved estimate, the account's open mounts; the spool state is then
evaluated (R58, R189). -/
def makeMount (id : ReqId) (t : RequestTerms) (d : Nat) (s : State) : State :=
  let m := MountRec.make id t d (s.reservedEstimate t.loc d)
  evalSpool (updAccount t.account (fun a => { a with openMounts := a.openMounts + 1 })
    (updDrive d (fun r => { r with state := .allocated, mountId := some id })
      { s with mnt := { s.mnt with mounts := s.mnt.mounts ++ [m] } }))

/-- Step 6: sourcing begins, by one of three ways (R97, R98, R100). -/
def beginSourcing (id : ReqId) (t : RequestTerms) (d : Nat) (s : State) : State :=
  match t.loc.station with
  | none =>
    postOpen { Prompt.blank .fetch t.volser with ringWanted := t.write, drive := some d, mountId := some id } s
  | some a =>
    if a = s.addr then waitOffer (.sourceLocal id) s
    else offerTo a (.fetch id t.volser t.loc.slot s.addr t.cls) s

/-- Send REVOKE; to this station itself it is taken at once (R45, R59, R67). -/
def sendRevoke (dst : Nat) (id : ReqId) (s : State) : State :=
  if dst = s.addr then onRevoke s.addr id s else offerTo dst (.revoke id) s

/-- An ACCEPT taken: from the awardee of a record in AWARDING it makes it AWARDED; any other is late, and is revoked in the given way
(R59). -/
def takeAccept (src : Nat) (id : ReqId) (revoke : State → State) (s : State) : State :=
  match s.origin id with
  | some o =>
    if o.state = .awarding ∧ o.awardee = some src then
      updOrigin id (fun o => { o with state := .awarded, awardAnswer := none, watch := some s.timers.mountWatch }) s
    else revoke s
  | none => revoke s

/-- An ACCEPT taken from a station: a late one is answered with REVOKE to it (R59). -/
def onAccept (src : Nat) (id : ReqId) (s : State) : State := takeAccept src id (sendRevoke src id) s

/-- The six steps of an accept (R58). An ACCEPT to this station itself that is late is revoked in the same event, before any order is queued
or FETCH sent: the record closes, wherever its reel is, and nothing is left to source (R45, R59, R62, assumption 52). -/
def acceptMount (id : ReqId) (t : RequestTerms) (d : Nat) (s : State) : State :=
  let s := makeMount id t d s
  let s := if id.station = s.addr then takeAccept s.addr id (closeRevoked id) s else offerTo id.station (.accept id d) s
  if (s.mount id).isSome then beginSourcing id t d s else s

/-- An AWARD taken from a peer: the bid record goes, and the accept check answers it (R58): a DECLINE to the AWARD's source, an
ACCEPT to the station that the request id names (assumption 45). -/
def onAward (src : Nat) (id : ReqId) (t : RequestTerms) (d : Nat) (s : State) : State :=
  let s := dropBid id s
  match s.awardRefusal id d with
  | some r => offerTo src (.decline id r) s
  | none => acceptMount id t d s

/-! ### Awarding and moving on (R57, R60, R61) -/

/-- A round ends without an award: round 2 begins, or the request ends FAILED UNSERVED (R61). -/
def endRound (id : ReqId) (s : State) : State :=
  match s.origin id with
  | some o => if o.round = 1 then offerRound id 2 s else endUnserved id s
  | none => s

/-- The record takes the head of its bid list as awardee (R57). -/
def takeHead (id : ReqId) (b : Bid) (s : State) : State :=
  updOrigin id (fun o => { o with
    state := .awarding, awardsMade := o.awardsMade + 1, awardee := some b.station, bidWindow := none, awardAnswer := none }) s

/-- The award moves on: the head leaves the bid list and the awardee is cleared (R60). -/
def dropHead (id : ReqId) (s : State) : State :=
  updOrigin id (fun o => { o with bids := o.bids.tail, awardee := none, awardAnswer := none }) s

/-- Whether a round may make another award: fewer than three made, and bids left (R60). -/
def OriginRec.mayAward (o : OriginRec) : Bool := decide (o.awardsMade < 3) && !o.bids.isEmpty

/-- Award the head of the bid list, or end the round when it may not be awarded. An award to this station itself is checked at
once, and its refusal moves the award on (R45, R57, R60). The first argument bounds the awards of a round. -/
def awardHead : Nat → ReqId → State → State
  | 0, id, s => endRound id s
  | k + 1, id, s =>
    match s.origin id with
    | some o =>
      match o.bids with
      | [] => endRound id s
      | b :: _ =>
        if o.mayAward then
          let s := takeHead id b s
          if b.station = s.addr then
            let s := dropBid id s
            match s.awardRefusal id b.drive with
            | some _ => awardHead k id (dropHead id s)
            | none => acceptMount id o.terms b.drive s
          else offerTo b.station (.award id o.terms b.drive) s
        else endRound id s
    | none => s

/-- The award moves on, and the next head is awarded or the round ends (R60). -/
def moveOn (id : ReqId) (s : State) : State := awardHead 3 id (dropHead id s)

/-- A DECLINE taken from the current awardee moves the award on (R60). -/
def onDecline (src : Nat) (id : ReqId) (s : State) : State :=
  match s.origin id with
  | some o => if o.state = .awarding ∧ o.awardee = some src then moveOn id s else s
  | none => s

/-- The Line Unit reports an AWARD undeliverable (R60). It is matched by request id and station, like a DECLINE, whichever AWARD of the
request it concerns (assumption 74). -/
def awardUndelivered (dst : Nat) (id : ReqId) (s : State) : State := onDecline dst id s

/-! ### Watching (R64, R67, R68) -/

/-- A PROGRESS taken: it sets the watch of a record of that awardee, and any other is answered with REVOKE (R64, R67), one for a record
that has no awardee among them (assumption 56). -/
def onProgress (src : Nat) (id : ReqId) (s : State) : State :=
  match s.origin id with
  | some o =>
    if o.awardee = some src then
      updOrigin id (fun o =>
        if o.state = .awarded ∨ o.state = .cancelling then { o with watch := some s.timers.mountWatch } else o) s
    else sendRevoke src id s
  | none => sendRevoke src id s

/-- A peer's restart, for one request (R68). -/
def originRestart (a : Nat) (id : ReqId) (s : State) : State :=
  match s.origin id with
  | some o =>
    if o.awardee = some a then
      match o.state with
      | .awarding => moveOn id s
      | .awarded | .cancelling => endRequest id (.failed .peerReset) s
      | .locating | .offered => s
    else s
  | none => s

/-- A peer's restart, for every request awarded to it, in the order of the origin table (R68, assumption 68). -/
def originsRestart (a : Nat) (s : State) : State :=
  (s.neg.origins.map (·.id)).foldl (fun s id => originRestart a id s) s

/-! ### The expiries of the originator's timers -/

/-- The locate window expires: another LOCATE, or the reel becomes a shelf reel (R51). -/
def locateExpired (id : ReqId) (s : State) : State :=
  match s.origin id with
  | some o =>
    if o.state = .locating ∧ o.locateWindow.isSome then
      if o.locateAttempts < s.timers.robustness then sendLocate id s else offerAt id .shelf s
    else s
  | none => s

/-- The bid window expires: the head is awarded, or the round ends (R57). -/
def bidWindowExpired (id : ReqId) (s : State) : State :=
  match s.origin id with
  | some o => if o.state = .offered ∧ o.bidWindow.isSome then awardHead 3 id s else s
  | none => s

/-- The award-answer timer expires (R60). -/
def awardAnswerExpired (id : ReqId) (s : State) : State :=
  match s.origin id with
  | some o => if o.state = .awarding ∧ o.awardAnswer.isSome then moveOn id s else s
  | none => s

/-- The mount watch expires: the request ends FAILED TIMEOUT (R64, R71). -/
def mountWatchExpired (id : ReqId) (s : State) : State :=
  match s.origin id with
  | some o =>
    if (o.state = .awarded ∨ o.state = .cancelling) ∧ o.watch = some 0 then endRequest id (.failed .timeout) s else s
  | none => s

/-- A bid record expires (R55). -/
def bidExpired (id : ReqId) (s : State) : State := dropBid id s

end Sys2Proof.Machine
end

