-- ==== Sys2Proof/Machine/Mounts.lean ====
section
/-! DEFINITION. The Mount Unit (chapter 5): failures and stages as the originator hears of them, sourcing, drive link events, the
cancel at the awardee, and what each leg's outcome does to its record. -/

namespace Sys2Proof.Machine

/-! ### RESULT and PROGRESS -/

/-- Send RESULT; to this station itself it is taken at once (R45, R65). -/
def sendResult (dst : Nat) (id : ReqId) (k : ResultKind) (globalDrive : Nat) (s : State) : State :=
  if dst = s.addr then onResult s.addr id k globalDrive s else offerTo dst (.result id k globalDrive) s

/-- Send PROGRESS; to this station itself it is taken at once (R45, R64). -/
def sendProgress (dst : Nat) (id : ReqId) (s : State) : State :=
  if dst = s.addr then onProgress s.addr id s else offerTo dst (.progress id) s

/-- A failure is recorded: the first reason is kept, and RESULT FAILED is sent if no RESULT has gone and the reason is not
REVOKED (R106). -/
def failRecord (id : ReqId) (r : FailReason) (s : State) : State :=
  let s := noteFailure id r s
  match s.mount id with
  | some m =>
    let reason := m.failure.getD r
    if m.resultSent = .none ∧ reason ≠ .revoked then
      sendResult m.originator id (.failed reason) 0 (updMount id (fun m => { m with resultSent := .failed }) s)
    else s
  | none => s

/-- A failure after which the record closes at once. -/
def failAndClose (id : ReqId) (r : FailReason) (s : State) : State := closeRecord id (failRecord id r s)

/-- Whether a PROGRESS or a RESULT MOUNTED may be offered for a record (R96). -/
def MountRec.reports (m : MountRec) : Bool := m.resultSent = .none && m.failure != some .revoked

/-- A record enters TO DRIVE, RING or LOADING, and PROGRESS is offered; entering TO DRIVE exchanges the reserved estimate for the
order's (R85, R96). Entering RETURNING offers nothing and exchanges nothing: a record turning back keeps its reserved estimate beside
its return order's until it closes (assumption 71). MOUNTED is entered by READY. -/
def enterStage (id : ReqId) (st : Stage) (s : State) : State :=
  match s.mount id with
  | some m =>
    let s := updMount id (fun m => { m with
      stage := st, reserved := if st = .toDrive then none else m.reserved }) s
    match st with
    | .toDrive | .ring | .loading => if m.reports then sendProgress m.originator id s else s
    | .sourcing | .mounted | .returning => s
  | none => s

/-! ### Offers that move a record to its next stage -/

/-- An offer is taken: the order enters the queue and its record enters the stage it calls for; an audit order moves the cursor
on (R114, R131). -/
def takeOffer (o : ArmOrder) (prompt : Option Nat) (stage : Option Stage) (s : State) : State :=
  let s := takeOrder o prompt s
  let s := if o.purpose = .audit then
      { s with seq := { s.seq with audit := { s.seq.audit with next := s.seq.audit.next + 1 } } }
    else s
  match o.mountId, stage with
  | some id, some st => enterStage id st s
  | _, _ => s

/-- An order is offered with the stage its record enters when it is taken. -/
def offerStaged (o : ArmOrder) (prompt : Option Nat) (stage : Option Stage) (answer : Answered) (s : State) : State :=
  if s.orderRoom then takeOffer o prompt stage s
  else waitOffer (.order o prompt stage) (holdAnswer prompt answer s)

/-- Whether a record's ring detour applies (R101). -/
def MountRec.detour (m : MountRec) : Bool := m.write && m.ring = .absent

/-- Where a record's first leg goes: the drive, or the cell for a ring (R97, R99, R101). -/
def MountRec.firstLeg (m : MountRec) : Destination :=
  if m.detour then ⟨.cell, .ring, none⟩ else ⟨.drive m.drive, .none, none⟩

/-- A MOUNT LEG order of a record. -/
def MountRec.leg (m : MountRec) (read : Bool) (src : Loc) (d : Destination) : ArmOrder :=
  { ArmOrder.offer .mountLeg read src d.dst .mount with
    cls := some m.cls, mountId := some m.id, volser := some m.volser, cellUse := d.cellUse, routing := d.routing }

/-- Local sourcing, with room in the queue: the take-out is made, and the pick queued or the record failed STALE (R97). -/
def sourceLocal (id : ReqId) (s : State) : State :=
  match s.mount id with
  | some m =>
    match s.homeOf m.volser with
    | none => failAndClose id .stale s
    | some (slot, _) =>
      let s' := updMount id (fun m => { m with homeSlot := slot }) s
      match s.takeOutAnswer slot m.volser id with
      | .granted e =>
        let ring := if e.ring then RingState.present else .absent
        let s' := updMount id (fun m => { m with ring := ring }) (takeOut slot m.volser id s')
        let m := { m with homeSlot := slot, ring := ring }
        takeOffer (m.leg true (.slot slot) m.firstLeg) none (some .toDrive) s'
      | .takenAgain | .refused _ => failAndClose id .stale s'
  | none => s

/-! ### Loading and unloading (R102, R103) -/

/-- The pick-back is queued: a RETURN LEG pick from the drive, with READ, to the return destination (R91, R108). -/
def queuePickBack (id : ReqId) (s : State) : State :=
  match s.mount id with
  | some m =>
    let o := ArmOrder.offer .returnLeg true (.drive m.drive) .cell .mount
    offerOrder ({ o with mountId := some id, volser := some m.volser }.toDest (s.pickBackDest m)) none .none s
  | none => s

/-- A drive goes EMPTYING with its reel LOOSE; its record becomes RETURNING (R91, R103). -/
def startEmptying (d : Nat) (id : ReqId) (s : State) : State :=
  updMount id (fun m => { m with stage := .returning, loadWait := none })
    (updDrive d (fun r => { r with state := .emptying, aboard := .loose }) s)

/-- LOAD is sent and the load wait starts; the drive becomes LOADING with its reel THREADED (R91, R102). -/
def startLoading (d : Nat) (m : MountRec) (s : State) : State :=
  enterStage m.id .loading
    (updMount m.id (fun m => { m with loadWait := some s.timers.loadWait })
      (sendLoad ⟨d, m.volser, m.write⟩
        (updDrive d (fun r => { r with state := .loading, aboard := .threaded }) s)))

/-- A record whose reel lies on a drive that it does not hold takes the drive again, to have it emptied (assumption 17). -/
def retakeDrive (d : Nat) (id : ReqId) (s : State) : State :=
  updMount id (fun m => { m with driveHeld := true, reelLeft := false }) (updDrive d (fun r => { r with mountId := some id }) s)

/-- A place of a record's reel onto its drive has completed OK (R92, R102): the new state, and whether the pick-back is then
queued: of a drive in OFFLINE no reel is picked. An order of the record goes to no drive but its own. -/
def placedOnDrive (d : Nat) (id : ReqId) (s : State) : State × Bool :=
  match s.mount id, s.drive d with
  | some m, some r =>
    if m.drive ≠ d then (s, false)
    else if r.state = .offline ∧ r.mountId = some id then
      (updMount id (fun m => { m with stage := .returning }) (updDrive d (fun r => { r with aboard := .loose }) s), false)
    else if r.state = .allocated ∧ r.mountId = some id then
      if m.turningBack then (startEmptying d id s, true) else (startLoading d m s, false)
    else if r.mountId = none ∧ r.state ≠ .offline then (startEmptying d id (retakeDrive d id s), true)
    else if r.mountId = none then
      (updMount id (fun m => { m with stage := .returning, driveHeld := true })
        (updDrive d (fun r => { r with mountId := some id, aboard := .loose }) s), false)
    else
      (updMount id (fun m => { m with stage := .returning, reelLeft := true }) (updDrive d (fun r => { r with aboard := .loose }) s),
        r.state != .offline)
  | _, _ => (s, false)

/-- READY at a drive in LOADING (R91, R103). -/
def driveReady (d : Nat) (id : ReqId) (s : State) : State :=
  let s := updDrive d (fun r => { r with state := .mounted }) s
  match s.mount id with
  | some m =>
    let s := updMount id (fun m => { m with
      loadWait := none, readyTime := some s.clock, reachedMounted := true, stage := .mounted }) s
    if m.reports then
      sendResult m.originator id .mounted (s.globalDrive d) (updMount id (fun m => { m with resultSent := .mounted }) s)
    else s
  | none => s

/-- LOAD FAILED, or expiry of the load wait, at a drive in LOADING (R91, R103). -/
def loadLost (d : Nat) (id : ReqId) (s : State) : State :=
  queuePickBack id (failRecord id .thread (startEmptying d id s))

/-- The drive counts and the unload time of UNLOADED (R103). -/
def noteUnload (id : ReqId) (c : Counts) (s : State) : State :=
  updMount id (fun m => { m with counts := some c, unloadTime := some (m.unloadTime.getD s.clock) }) s

/-- A DRIVE PROTOCOL notice, with the state of the drive when it is fitted (R89, R93). -/
def driveProtocol (d : Nat) (e : DriveEvent) (s : State) : State :=
  postMount (.driveProtocol d e ((s.drive d).map (·.state))) s

/-- READY (R91, R93, R103). -/
def onReady (d : Nat) (s : State) : State :=
  match s.drive d with
  | some ⟨.loading, _, _, _, some id, _⟩ => driveReady d id s
  | _ => driveProtocol d .ready s

/-- LOAD FAILED (R91, R93, R103). -/
def onLoadFailed (d : Nat) (s : State) : State :=
  match s.drive d with
  | some ⟨.loading, _, _, _, some id, _⟩ => loadLost d id s
  | _ => driveProtocol d .loadFailed s

/-- UNLOADED (R91, R92, R93, R103). -/
def onUnloaded (d : Nat) (c : Counts) (s : State) : State :=
  match s.drive d with
  | some ⟨.mounted, _, _, _, some id, _⟩ => queuePickBack id (startEmptying d id (noteUnload id c s))
  | some ⟨.offline, _, _, _, some id, .threaded⟩ =>
    noteUnload id c (updDrive d (fun r => { r with aboard := .loose }) s)
  | _ => driveProtocol d .unloaded s

/-- Whether an order is the pick-back from a drive. -/
def ArmOrder.isPickBack (d : Nat) (o : ArmOrder) : Bool :=
  o.form = .pick && o.src = .drive d && o.queuedBy = .mount

/-- A pick-back from the drive that is queued and not issued is removed, and so is one that waits for room (R92, assumption
29). -/
def dropPickBack (d : Nat) (s : State) : State :=
  let s := { s with seq := { s.seq with waiting := s.seq.waiting.filter fun w =>
    match w with
    | .order o _ _ => !o.isPickBack d
    | .laneHead _ | .sourceLocal _ => true } }
  match s.seq.queue.find? fun o => o.isPickBack d with
  | some o => removeOrder o.number s
  | none => s

/-- OFFLINE, as it acts on the record that holds the drive (R104). -/
def recordOffline (id : ReqId) (s : State) : State :=
  match s.mount id with
  | some m =>
    match m.stage with
    | .sourcing | .toDrive | .ring => turnBack id (failRecord id .driveLost s)
    | .loading => failRecord id .driveLost (updMount id (fun m => { m with loadWait := none }) s)
    | .mounted => updMount id (fun m => { m with unloadTime := some (m.unloadTime.getD s.clock) }) s
    | .returning => s
  | none => s

/-- OFFLINE (R92, R93, R104). No reel is picked from the drive in OFFLINE, so that a queued pick-back goes whatever state the drive was in
(assumption 29). -/
def onOffline (d : Nat) (s : State) : State :=
  match s.drive d with
  | some r =>
    if r.state = .offline then driveProtocol d .offline s
    else
      let s := updDrive d (fun r => { r with state := .offline }) (dropPickBack d s)
      match r.mountId with
      | some id => recordOffline id s
      | none => s
  | none => driveProtocol d .offline s

/-- The record whose reel lies on a drive that it does not hold (assumption 17). -/
def State.leftOn (s : State) (d : Nat) : Option MountRec := s.mnt.mounts.find? fun m => m.reelLeft && m.drive = d

/-- The record whose reel was left on a drive takes the drive over from whatever record holds it (assumption 69). -/
def reclaimDrive (d : Nat) (id : ReqId) (holder : Option ReqId) (s : State) : State :=
  match holder with
  | some h => retakeDrive d id (updMount h (fun m => { m with driveHeld := false }) s)
  | none => retakeDrive d id s

/-- ONLINE of a drive with the LOOSE reel of a record that holds it: EMPTYING, and the pick-back queued, unless one that was issued before
the OFFLINE is still to complete (R92, assumption 43). -/
def onlineLoose (d : Nat) (id : ReqId) (s : State) : State :=
  let s := startEmptying d id s
  if s.orders.any (ArmOrder.isPickBack d) then s else queuePickBack id s

/-- ONLINE (R92, R93). A LOOSE reel left by a record that does not hold the drive makes that record its holder again, and with no record
known the drive is EMPTYING alone (assumption 69). -/
def onOnline (d : Nat) (s : State) : State :=
  match s.drive d with
  | some r =>
    if r.state = .offline then
      match r.aboard, r.mountId with
      | .none, some id =>
        updMount id (fun m => { m with driveHeld := false })
          (updDrive d (fun r => { r with state := .free, mountId := none }) s)
      | .none, none => updDrive d (fun r => { r with state := .free }) s
      | .loose, holder =>
        match s.leftOn d, holder with
        | some m, _ => onlineLoose d m.id (reclaimDrive d m.id holder s)
        | none, some id => onlineLoose d id s
        | none, none => updDrive d (fun r => { r with state := .emptying }) s
      | .threaded, _ => updDrive d (fun r => { r with state := .mounted }) s
    else driveProtocol d .online s
  | none => driveProtocol d .online s

/-! ### The timers of a record -/

/-- The load wait expires (R91, R103). -/
def loadWaitExpired (id : ReqId) (s : State) : State :=
  match s.mount id with
  | some m => if m.stage = .loading ∧ m.loadWait = some 0 then loadLost m.drive id s else s
  | none => s

/-- The arrival limit expires with the record still in SOURCING (R98, R107). -/
def arrivalExpired (id : ReqId) (s : State) : State :=
  match s.mount id with
  | some m => if m.stage = .sourcing ∧ m.arrivalLimit = some 0 then failAndClose id .transit s else s
  | none => s

/-! ### CANCEL at the awardee (R70) -/

/-- A CANCEL taken from a station (R70). One for a record that has been MOUNTED is answered TOO LATE, also when the record was marked
cancel-pending in LOADING, but for a revoked record, which sends no RESULT (R62, assumption 33); before that a first one marks the record,
sends RESULT CANCELLED and turns the reel back, and another changes nothing. -/
def onCancel (src : Nat) (id : ReqId) (s : State) : State :=
  match s.mount id with
  | some m =>
    if m.originator ≠ src ∨ m.resultSent = .failed then s
    else if m.reachedMounted then
      if m.failure = some .revoked then s else sendResult src id .tooLate (s.globalDrive m.drive) s
    else if m.cancelPending then s
    else
      let s' := updMount id (fun m => { m with cancelPending := true }) s
      if m.resultSent = .none ∧ m.failure ≠ some .revoked then
        turnBack id (sendResult src id .cancelled 0 (updMount id (fun m => { m with resultSent := .cancelled }) s'))
      else turnBack id s'
  | none => s

/-- Send CANCEL; to this station itself it is taken at once (R45, R69). -/
def sendCancel (dst : Nat) (id : ReqId) (s : State) : State :=
  if dst = s.addr then onCancel s.addr id s else offerTo dst (.cancel id) s

/-! ### The holder (R72, R73) -/

/-- Whether the sequencer holds a pick or place for a mount id to a lane mouth (R72). -/
def State.fetchInHand (s : State) (id : ReqId) : Bool := s.orders.any fun o => o.mountId = some id && o.toMouth

/-- The routing record the holder supplies (R72, R136). -/
def fetchRouting (id : ReqId) (v : Volser) (dest : Nat) (e : HomeEntry) : Routing :=
  ⟨v, id, .toDrive, some dest, e.ring, e.pool, 0, none⟩

/-- A FETCH taken (R72). A NOT HERE that refuses it goes to the FETCH's source (assumption 64). -/
def onFetch (src : Nat) (id : ReqId) (v : Volser) (slot dest cls : Nat) (s : State) : State :=
  if dest = s.addr ∨ s.fitted (s.toward dest) = false then offerTo src (.notHere id v .noLane) s
  else
    match s.takeOutAnswer slot v id with
    | .granted e =>
      let o := ArmOrder.offer .mountLeg true (.slot slot) (.mouth (s.toward dest)) .negotiation
      offerStaged { o with
        cls := some cls, mountId := some id, volser := some v, routing := some (fetchRouting id v dest e) }
        none none .none (takeOut slot v id s)
    | .takenAgain => if s.fetchInHand id then s else offerTo src (.notHere id v .out) s
    | .refused r => offerTo src (.notHere id v r) s

/-- The holder's part has ended without the reel in the lane: NOT HERE goes to the FETCH's destination (R73), also when that
is not the station the FETCH came from (assumption 64). A RETURN LEG of the holder sends nothing (R164). -/
def holderFailed (o : ArmOrder) (r : NotHereReason) (s : State) : State :=
  if o.purpose = .mountLeg then
    match o.mountId, o.volser, o.routing with
    | some id, some v, some ⟨_, _, _, some dest, _, _, _, _⟩ => offerTo dest (.notHere id v r) s
    | _, _, _ => s
  else s

/-- The failure a NOT HERE reason maps to (R73). -/
def NotHereReason.failure : NotHereReason → FailReason
  | .out | .retiring | .retired | .missing | .absent => .stale
  | .misfiled => .misfiled
  | .unreadable => .unreadable
  | .arm => .arm
  | .noLane => .transit

/-- A NOT HERE taken from the holder: the Directory forgets the volser, and a record in SOURCING fails and closes (R17, R73,
R98). -/
def onNotHere (src : Nat) (id : ReqId) (v : Volser) (r : NotHereReason) (s : State) : State :=
  let s := forgetVolser v s
  match s.mount id with
  | some m => if m.stage = .sourcing ∧ m.home = some src then failAndClose id r.failure s else s
  | none => s

/-- The Line Unit reports a FETCH undeliverable (R98). -/
def fetchUndelivered (id : ReqId) (s : State) : State :=
  match s.mount id with
  | some m => if m.stage = .sourcing then failAndClose id .transit s else s
  | none => s

/-! ### The outcomes of a record's legs (R105) -/

/-- A MISMATCH at the record's pick: it fails MISFILED and returns (R105). -/
def recordMisfiled (id : ReqId) (s : State) : State :=
  updMount id (fun m => { m with stage := .returning }) (failRecord id .misfiled s)

/-- A place onto the drive ended DEST OCCUPIED: DRIVE LOST, DRIVE PROTOCOL, and the reel in hand turns back (R105, R107). -/
def driveOccupied (d : Nat) (id : ReqId) (s : State) : State :=
  turnLeg id (updMount id (fun m => { m with turningBack := true })
    (driveProtocol d .destOccupied (failRecord id .driveLost s)))

/-- The place of the ring detour has completed: stage RING and a RING prompt; for a record that has turned back the prompt is
withdrawn at once, as of case 4 (R101, R107, assumption 16). -/
def ringPlaced (id : ReqId) (i : Nat) (s : State) : State :=
  match s.mount id with
  | some m =>
    postCellReel { Prompt.blank .ring m.volser with drive := some m.drive, mountId := some id } m.volser i
      (if m.turningBack then s else enterStage id .ring s)
  | none => s

/-- A turned-back record whose reel has come to the cell for a ring sends it home (assumption 16). -/
def ringTurned (id : ReqId) (s : State) : State :=
  match s.mount id, s.mountPrompt id .ring with
  | some m, some p => if m.turningBack then ringReturn id p s else s
  | _, _ => s

end Sys2Proof.Machine
end

