-- ==== Sys2Proof/Machine/Lanes.lean ====
section
/-! DEFINITION. The Lane Unit (chapter 7): the head of an inbound lane and where its reel goes, credits returned and taken,
deposits sent and taken, and a neighbour lost, returned or restarted. -/

namespace Sys2Proof.Machine

/-! ### The head's pick (R99, R109, R144, R147) -/

/-- The live record a presented reel matches (R99). -/
def State.matching (s : State) (r : Routing) : Option MountRec :=
  match s.mount r.mountId with
  | some m =>
    if m.volser = r.volser ∧ m.stage = .sourcing ∧ m.home.isSome ∧ m.home ≠ some s.addr then some m else none
  | none => none

/-- The address an orphan's hops give, by the side it came from (R109). -/
def State.orphanHome (s : State) (d : Side) (r : Routing) : Option Nat :=
  match d with
  | .west => if r.hops ≤ s.addr then some (s.addr - r.hops) else none
  | .east => if s.addr + r.hops ≤ 15 then some (s.addr + r.hops) else none

/-- What the Lane Unit decides for a head (R144). -/
inductive HeadPlan where
  /-- a match, with the record and the routing it now has -/
  | matched (m : MountRec)
  | relay (out : Side) (r : Routing)
  | home (dst : Destination) (r : Routing)
  | unroutable (r : Routing)
deriving DecidableEq, Repr

/-- The decision for a head whose purpose and destination are usable and at another station (R147). -/
def State.relayPlan (s : State) (out : Side) (r : Routing) : HeadPlan :=
  if s.fitted out then .relay out r else .unroutable r

/-- The decision for an orphan (R109). -/
def State.orphanPlan (s : State) (d : Side) (r : Routing) : HeadPlan :=
  match s.orphanHome d r with
  | some a => s.relayPlan d { r with purpose := .toHome, destination := some a, counts := none }
  | none => .unroutable r

/-- The decision for the head of a side's inbound lane (R144). -/
def State.headPlan (s : State) (d : Side) (r : Routing) : HeadPlan :=
  match r.destination, r.purpose with
  | none, _ => .unroutable r
  | some _, .unusable _ => .unroutable r
  | some a, .toDrive =>
    if a = s.addr then
      match s.matching r with
      | some m => .matched m
      | none => s.orphanPlan d r
    else s.relayPlan (s.toward a) r
  | some a, .toHome =>
    if a = s.addr then
      match s.homeOf r.volser with
      | some (slot, _) => .home ⟨.slot slot, .none, none⟩ r
      | none => .home .remove r
    else s.relayPlan (s.toward a) r

/-- A matched record takes hops, ring and pool from the routing record, and its arrival limit stops (R99). -/
def MountRec.arrived (m : MountRec) (r : Routing) : MountRec :=
  { m with arrivalLimit := none, hops := r.hops, ring := if r.ring then .present else .absent, pool := r.pool }

/-- A pick from a side's mouth, as the Lane Unit offers it (R144). -/
def lanePick (d : Side) (purpose : Purpose) (r : Routing) (dst : Destination) : ArmOrder :=
  { (ArmOrder.offer purpose false (.mouth d) .cell .lane).toDest dst with
    mountId := some r.mountId, volser := some r.volser }

/-- The pick of a head is taken into the queue, and its number kept in the side record (R144). -/
def takeLanePick (d : Side) (o : ArmOrder) (stage : Option Stage) (s : State) : State :=
  let n := s.nextOrder
  takeOffer o none stage (updSide d (fun x => { x with pickQueued := some n }) s)

/-- Whether a to-location is the mouth of a side that is not fitted (R144). -/
def State.unfittedMouth (s : State) : Loc → Bool
  | .mouth d => !s.fitted d
  | .slot _ | .drive _ | .cell => false

/-- The head's pick is queued, with room in the queue (R144). A matched reel whose way home starts at a side that is not fitted is
unroutable like any other, and its order stays its record's, so that the place into the cell closes it (R105, R108, assumption 60). The pick
of a matched reel is queued by the Lane Unit, and its order is the record's from then on (assumption 76). -/
def takeLaneHead (d : Side) (s : State) : State :=
  match (s.side d).inbound with
  | [] => s
  | r :: _ =>
    match s.headPlan d r with
    | .matched m =>
      let m := m.arrived r
      let s := updMount m.id (fun m => m.arrived r) s
      let dst := if m.turningBack then s.checkedDest m else m.firstLeg
      let stage := if m.turningBack then Stage.returning else .toDrive
      if s.unfittedMouth dst.dst then
        takeLanePick d { lanePick d .returnLeg r { Destination.remove with routing := some r } with queuedBy := .mount }
          (some stage) s
      else takeLanePick d { lanePick d .mountLeg r dst with cls := some m.cls } (some stage) s
    | .relay out r => takeLanePick d (lanePick d .relay r ⟨.mouth out, .none, some r⟩) none s
    | .home dst r => takeLanePick d (lanePick d .returnLeg r { dst with routing := some r }) none s
    | .unroutable r => takeLanePick d (lanePick d .returnLeg r { Destination.remove with routing := some r }) none s

/-- The list has a head and no pick is queued: its pick is queued, or waits for room (R144). -/
def queueHead (d : Side) (s : State) : State :=
  if (s.side d).inbound.isEmpty || (s.side d).pickQueued.isSome || s.seq.waiting.contains (.laneHead d) then s
  else if s.orderRoom then takeLaneHead d s
  else waitOffer (.laneHead d) s

/-! ### Credits returned and deposits sent (R140, R145, R146) -/

/-- A credit is returned to the neighbour of a side: a CREDIT while it is UP, and otherwise unreported credit (R145). Its lane field
names the neighbour's facing outbound lane (assumption 57). -/
def returnCredit (d : Side) (s : State) : State :=
  if ((tableGet s.line.peers (s.neighbour d)).map (·.presence)) = some .up then
    offerTo (s.neighbour d) (.credit d.opposite 1) s
  else updSide d (fun x => { x with unreported := satAdd 255 x.unreported 1 }) s

/-- The head leaves the inbound list and its pick is no longer queued; the credit is returned (R145, R146). -/
def headGone (d : Side) (s : State) : State :=
  returnCredit d (updSide d (fun x => { x with inbound := x.inbound.tail, pickQueued := none }) s)

/-- The head's pick found no reel, or was dropped: LANE EMPTY is posted (R146). -/
def laneEmpty (d : Side) (arm : Bool) (s : State) : State :=
  match (s.side d).inbound with
  | r :: _ => headGone d (postLane (.laneEmpty d r.volser r.mountId r.hops arm) s)
  | [] => headGone d s

/-- A place into a mouth has completed: the credit is spent and the routing record goes on in a DEPOSIT, one hop more (R140). -/
def depositReel (d : Side) (o : ArmOrder) (s : State) : State :=
  let s := spendCredit d o.number s
  match o.routing with
  | some r => offerTo (s.neighbour d) (.deposit { r with hops := satAdd 30 r.hops 1 }) s
  | none => s

/-- An undelivered deposit is kept; with six already held the oldest is dropped and LANE OVERRUN posted (R140). -/
def keepDeposit (d : Side) (r : Routing) (s : State) : State :=
  match (s.side d).undelivered with
  | [] => updSide d (fun x => { x with undelivered := [r] }) s
  | old :: rest =>
    if rest.length + 1 < Config.lanePlaces then
      updSide d (fun x => { x with undelivered := old :: rest ++ [r] }) s
    else
      postLane (.laneOverrun d old.volser old.mountId old.hops (rest.length + 1) .undelivered)
        (updSide d (fun x => { x with undelivered := rest ++ [r] }) s)

/-- The Line Unit reports a DEPOSIT undeliverable (R140). -/
def depositUndelivered (dst : Nat) (r : Routing) (s : State) : State :=
  match s.sideOf dst with
  | some d => keepDeposit d r s
  | none => s

/-- The Line Unit reports a CREDIT undeliverable (R145). -/
def creditUndelivered (dst count : Nat) (s : State) : State :=
  match s.sideOf dst with
  | some d => updSide d (fun x => { x with unreported := satAdd 255 x.unreported count }) s
  | none => s

/-! ### Frames from the neighbour (R141, R143) -/

/-- The lane-retry flags of the orders to a mouth are cleared (R125, R141). -/
def clearRetry (d : Side) (s : State) : State :=
  let f := fun (o : ArmOrder) => if o.dst = .mouth d then { o with laneRetry := false } else o
  { s with seq := { s.seq with queue := s.seq.queue.map f, inArm := s.seq.inArm.map f } }

/-- A CREDIT's count is added to available credit, within the agreed capacity less reserved credit; in AGREEING it is not added
(R141). -/
def SideRec.credited (r : SideRec) (n : Nat) : SideRec :=
  match r.outbound with
  | .isOpen | .held | .down => { r with available := min (r.available + n) (r.agreed - r.reserved) }
  | .agreeing | .notFitted => r

/-- A CREDIT taken (R141): its lane field must name the sender's outbound lane that faces this station, as R141 has it, although R36
and R145 have the sender name the lane otherwise (assumption 57). -/
def onCredit (src : Nat) (lane : Side) (n : Nat) (s : State) : State :=
  match s.sideOf src with
  | some d => if lane = d.opposite then grantCredits d (clearRetry d (updSide d (fun r => r.credited n) s)) else s
  | none => s

/-- The limit of an inbound list (R143). -/
def State.inboundLimit (s : State) (d : Side) : Nat :=
  if (s.side d).agreed = 0 then s.advertised d else (s.side d).agreed

/-- A routing record joins an inbound list, or overruns it (R143). -/
def appendInbound (d : Side) (r : Routing) (s : State) : State :=
  let n := (s.side d).inbound.length
  if n < Config.lanePlaces then
    let s' := updSide d (fun x => { x with inbound := x.inbound ++ [r] }) s
    if n < s.inboundLimit d then s' else postLane (.laneOverrun d r.volser r.mountId r.hops (n + 1) .kept) s'
  else postLane (.laneOverrun d r.volser r.mountId r.hops n .dropped) s

/-- A DEPOSIT taken (R143). -/
def onDeposit (src : Nat) (r : Routing) (s : State) : State :=
  match s.sideOf src with
  | some d =>
    let s' := appendInbound d r s
    if (s.side d).inbound.isEmpty then queueHead d s' else s'
  | none => s

/-! ### The neighbour lost, returned, restarted (R148, R149, R150) -/

/-- The neighbour of a side is reported DOWN (R148). -/
def laneDown (d : Side) (s : State) : State :=
  updSide d (fun r => if r.outbound = .notFitted then r
    else { r with outbound := .down, downFromAgreeing := decide (r.outbound = .agreeing) }) s

/-- A side leaves DOWN (R149). -/
def SideRec.reopened (r : SideRec) : SideRec :=
  if r.downFromAgreeing then { r with outbound := .agreeing, available := 0 }
  else { r with outbound := if r.hold then .held else .isOpen }

/-- The undelivered deposits are offered again, oldest first, and the list is emptied (R149). -/
def resendDeposits (d : Side) (s : State) : State :=
  (s.side d).undelivered.foldl (fun s r => offerTo (s.neighbour d) (.deposit r) s)
    (updSide d (fun x => { x with undelivered := [] }) s)

/-- One CREDIT carries the unreported credit (R149), its lane field as in `returnCredit` (assumption 57). -/
def reportCredit (d : Side) (s : State) : State :=
  if (s.side d).unreported = 0 then s
  else
    offerTo (s.neighbour d) (.credit d.opposite (s.side d).unreported)
      (updSide d (fun x => { x with unreported := 0 }) s)

/-- The neighbour of a side is reported back UP (R149). -/
def laneReturn (d : Side) (s : State) : State :=
  if (s.side d).outbound = .down then
    grantCredits d (reportCredit d (resendDeposits d (updSide d SideRec.reopened s)))
  else s

/-- The neighbour of a side is reported restarted, with its HELLO (R150). The deposits offered again stay listed until they enter
the transmit queue, and step 4 subtracts them (assumption 20). -/
def laneRestart (d : Side) (h : HelloFields) (s : State) : State :=
  let kept := (s.side d).undelivered
  let s := updSide d (fun r => { r with outbound := .agreeing, available := 0, unreported := 0 }) s
  let s := kept.foldl (fun s r => offerResend (s.neighbour d) r s) s
  applyHello d h kept.length s

/-- A HELLO of a peer is handed to the Lane Unit (R39, R138). -/
def laneHello (a : Nat) (h : HelloFields) (s : State) : State :=
  match s.sideOf a with
  | some d => applyHello d h (s.side d).undelivered.length s
  | none => s

/-! ### VARY LANE (R151) -/

/-- A side after VARY LANE HOLD. -/
def SideRec.hostHold (r : SideRec) : SideRec :=
  { r with hold := true, outbound := if r.outbound = .isOpen then .held else r.outbound }

/-- A side after VARY LANE RELEASE, before grants. -/
def SideRec.hostRelease (r : SideRec) : SideRec :=
  { r with hold := false, outbound := if r.outbound = .held then .isOpen else r.outbound }

end Sys2Proof.Machine
end

