-- ==== Sys2Proof/Machine/Wear.lean ====
section
/-! DEFINITION. The Wear Monitor (chapter 9): the hand-over of a returned slot, the window test, the retirement decision and the
course of a retirement. -/

namespace Sys2Proof.Machine

/-- The wear record of a slot (R171). -/
def State.wearOf (s : State) (slot : Nat) : WearRec := (tableGet s.wear.records slot).getD WearRec.clear

def setWear (slot : Nat) (w : WearRec) (s : State) : State :=
  { s with wear := { s.wear with records := tableSet WearRec.clear s.wear.records slot w } }

/-- A pass's counts are added (R173). -/
def WearRec.accumulated (w : WearRec) (c : Counts) : WearRec :=
  { w with
    lifetime := satAdd Config.top16 w.lifetime 1
    passes := w.passes + 1
    blocks := satAdd Config.top32 w.blocks (c.blocksRead + c.blocksWritten)
    recoveries := satAdd Config.top16 w.recoveries c.recoveries }

/-- Whether a full window is suspect (R174). -/
def WearRec.suspect (w : WearRec) (threshold : Nat) : Bool :=
  decide (w.blocks ≠ 0) && decide (threshold * w.blocks ≤ w.recoveries * 10000)

/-- The record after its full window has been dealt with: the streak moves when the window is tested, and the window is set to 0
(R174). -/
def WearRec.tested (w : WearRec) (threshold : Nat) : WearRec :=
  { w with
    streak := if w.blocks = 0 then w.streak else if w.suspect threshold then satAdd 3 w.streak 1 else 0
    passes := 0
    blocks := 0
    recoveries := 0 }

/-- A WEAR notice, with the record's figures as they stand (R179). -/
def wearNotice (slot : Nat) (v : Volser) (e : WearEvent) (cause : Option RetireCause) (s : State) : State :=
  postWear (.wear slot v e cause (s.wearOf slot).lifetime (s.wearOf slot).streak) s

/-- The window test: nothing is done before window passes reaches W (R174). -/
def testWindow (slot : Nat) (v : Volser) (s : State) : State :=
  let w := s.wearOf slot
  if w.passes < s.settings.window then s
  else
    let s' := setWear slot (w.tested s.settings.threshold) s
    if w.suspect s.settings.threshold then wearNotice slot v (.suspect w.blocks w.recoveries) none s' else s'

/-- A pass with counts: a window left full by a hard error is tested first, the pass is added, and without a hard error the test
follows (R173). -/
def wearPass (slot : Nat) (v : Volser) (c : Counts) (s : State) : State :=
  let s := testWindow slot v s
  let s := setWear slot ((s.wearOf slot).accumulated c) s
  if c.hardError then s else testWindow slot v s

/-- The cause for which a record is due for retirement, the first that holds (R175). -/
def WearRec.dueCause (w : WearRec) (hardError : Bool) (c : Settings) : Option RetireCause :=
  if hardError then some .hardError
  else if c.streak ≤ w.streak then some .streak
  else if c.passLimit ≠ 0 ∧ c.passLimit ≤ w.lifetime then some .passLimit
  else none

/-- The retirement decision (R175). -/
def WearRec.decided (w : WearRec) (hardError : Bool) (c : Settings) : WearRec :=
  if w.stage = .none then
    match w.dueCause hardError c with
    | some k => { w with stage := .due, cause := some k }
    | none => w
  else w

/-- The CELL pick of a retirement (R113, R176). -/
def retirePick (slot : Nat) (v : Volser) : ArmOrder :=
  { ArmOrder.offer .cell false (.slot slot) .cell .wear with volser := some v, cellUse := .retire }

/-- With the stage DUE, retire-start is requested: granted, the entry becomes RETIRING and the CELL pick is offered; refused,
nothing changes (R10, R176). -/
def startRetirement (slot : Nat) (s : State) : State :=
  match s.retireGranted slot with
  | some e =>
    let s := setEntry slot { e with state := .retiring } s
    let s := setWear slot { s.wearOf slot with stage := .ordered } s
    let s := wearNotice slot e.volser .retiring (s.wearOf slot).cause s
    offerStaged (retirePick slot e.volser) none none .none s
  | none => s

/-- A hand-over of a slot that the catalogue has a reel in is taken: the pass, the retirement decision, and the start of a retirement
that is due (R172 to R176). -/
def takePass (h : Handover) (s : State) : State :=
  let s := match h.counts with
    | some c => wearPass h.slot h.volser c s
    | none => s
  let hard := (h.counts.map (·.hardError)).getD false
  let s := setWear h.slot ((s.wearOf h.slot).decided hard s.settings) s
  if (s.wearOf h.slot).stage = .due then startRetirement h.slot s else s

/-- A hand-over is taken (R172). A record whose slot entry is empty receives no updates (R171). The volser is not compared: a hand-over
that still waits when DIR WRITE rewrites its slot counts for the new reel's record (assumption 62). -/
def takeHandover (h : Handover) (s : State) : State := if (s.entry h.slot).isSome then takePass h s else s

/-- The oldest hand-over that waits is taken. How many may wait is not bounded, and one for a record already ORDERED or PROMPTED is
added to it all the same (assumption 63). -/
def wearStep (s : State) : State :=
  match s.wear.handovers with
  | h :: rest => takeHandover h { s with wear := { s.wear with handovers := rest } }
  | [] => s

/-- A retirement is abandoned: the stage is DUE again and keeps its cause (R177). -/
def abandonRetirement (slot : Nat) (v : Volser) (e : WearEvent) (s : State) : State :=
  let s := setWear slot { s.wearOf slot with stage := .due } s
  wearNotice slot v e (s.wearOf slot).cause s

/-- The CELL order's place has completed: a RETIRE prompt stands for the reel, and the stage is PROMPTED (R177). -/
def retirePlaced (slot : Nat) (v : Volser) (i : Nat) (s : State) : State :=
  setWear slot { s.wearOf slot with stage := .prompted }
    (postCellReel { Prompt.blank .retire v with slot := some slot } v i s)

/-- The RETIRE prompt has been answered: the notice RETIRED is posted, and stage and cause are cleared (R178). -/
def retireEnded (slot : Nat) (v : Volser) (s : State) : State :=
  let s := wearNotice slot v .retired (s.wearOf slot).cause s
  setWear slot { s.wearOf slot with stage := .none, cause := none } s

end Sys2Proof.Machine
end

