-- ==== Sys2Proof/Machine/Completion.lean ====
section
/-! DEFINITION. What comes back from the arm (sections 6.2 to 6.6): completions, faults, label readings, the audit cursor, and the
waiting offers that find room. -/

namespace Sys2Proof.Machine

/-! ### The order in flight -/

/-- The live mount record an order belongs to (R105). -/
def State.recordOf (s : State) (o : ArmOrder) : Option MountRec := if o.ofMount then o.mountId.bind s.mount else none

/-- The order in the arm position, with the arm in a state. -/
def setInArm (o : ArmOrder) (a : ArmState) (s : State) : State :=
  { s with seq := { s.seq with inArm := some o, arm := a } }

/-- The record of an order closes, its return leg having ended (R105, R110). -/
def closeOf (o : ArmOrder) (s : State) : State :=
  match s.recordOf o with
  | some m => closeRecord m.id s
  | none => s

/-- The record of an order fails and closes at once (R105). -/
def failOf (o : ArmOrder) (r : FailReason) (s : State) : State :=
  match s.recordOf o with
  | some m => failAndClose m.id r s
  | none => s

/-- Whether the issue ran READ. -/
def ArmOrder.readRan (o : ArmOrder) : Bool := o.phases.contains .read

/-- The eight symbols of a COMPLETION; anything but eight is a COMPLETION without symbols (assumption 37). -/
def readingOf : Option (List Nat) → Option (List Nat)
  | some l => if l.length = 8 then some l else none
  | none => none

/-- Whether a COMPLETION is a fault of the order in flight (R117). -/
def ArmOrder.faults (o : ArmOrder) (r : ArmResult) (symbols : Option (List Nat)) : Bool :=
  match r, o.form with
  | .gripFault, _ | .armFault, _ => true
  | .sourceEmpty, .place => true
  | .sourceEmpty, .pick | .sourceEmpty, .readOnly => false
  | .destOccupied, .place => o.dst = .cell
  | .destOccupied, .pick | .destOccupied, .readOnly => true
  | .ok, _ => o.readRan && (readingOf symbols).isNone

/-- The ARM FAULT notice of a fault (R117). Its from- and to-location are the locations alone: a CELL end carries no cell position
(assumption 73). -/
def ArmOrder.faultNotice (o : ArmOrder) (r : ArmResult) (second : Bool) : Notice :=
  .armFault o.number o.purpose o.form o.src o.dst o.mountId r second

/-! ### The audit (R11, R131, R132, R133) -/

/-- Whether an AUDIT order is in the sequencer or waits to enter it (R131). -/
def State.auditOut (s : State) : Bool :=
  s.orders.any (fun o => o.purpose = .audit) || s.seq.waiting.any fun w =>
    match w with
    | .order o _ _ => o.purpose = .audit
    | .laneHead _ | .sourceLocal _ => false

def updAudit (f : AuditCursor → AuditCursor) (s : State) : State :=
  { s with seq := { s.seq with audit := f s.seq.audit } }

/-- The audit ends once its cursor has passed the last slot and its last order has ended (R133). -/
def finishAudit (s : State) : State :=
  let a := s.seq.audit
  if a.running && decide (a.last < a.next) && !s.auditOut then
    updAudit (fun a => { a with running := false })
      (postSeq (.auditDone a.first a.last a.read a.skipped a.dropped a.posted) s)
  else s

/-- An AUDIT RESULT notice, with the entry as it stands after the report (R132). -/
def auditResult (slot : Nat) (f : Finding) (read : Option Volser) (s : State) : State :=
  updAudit (fun a => { a with posted := a.posted + 1 })
    (postSeq (.auditResult slot f ((s.entry slot).map fun e => (e.volser, e.state)) read) s)

/-- The volser of an audit outcome. -/
def AuditOutcome.volser : AuditOutcome → Option Volser
  | .read v => some v
  | .slotEmpty | .unreadable => none

/-- An audit read has ended in one of the three outcomes the Directory takes (R132). -/
def auditEnded (slot : Nat) (o : AuditOutcome) (s : State) : State :=
  let finding := auditFinding (s.entry slot) o
  let s := updAudit (fun a => { a with read := a.read + 1 }) (auditReport slot o s)
  match finding with
  | some f => auditResult slot f o.volser s
  | none => s

/-- An audit read was dropped (R132). -/
def auditDropped (slot : Nat) (s : State) : State :=
  auditResult slot .notRead none (updAudit (fun a => { a with dropped := a.dropped + 1 }) s)

/-- Whether an AUDIT RESULT waits for the report FIFO (R131). -/
def State.auditNoticeWaits (s : State) : Bool :=
  s.seq.notices.any fun n =>
    match n with
    | .auditResult _ _ _ _ => true
    | _ => false

/-- The AUDIT read of a slot (R131). -/
def auditRead (slot : Nat) : ArmOrder :=
  { ArmOrder.offer .audit true (.slot slot) (.slot slot) .audit with form := .readOnly, phases := phasesOf .readOnly true }

/-- The audit cursor steps (R131); while the arm is in FAULT it waits (R133). -/
def auditStep (s : State) : State :=
  let a := s.seq.audit
  if a.running && s.seq.arm != .fault && decide (a.next ≤ a.last) && !s.auditOut && !s.auditNoticeWaits then
    if (s.entry a.next).map (·.state) = some .out then
      finishAudit (updAudit (fun a => { a with skipped := a.skipped + 1, next := a.next + 1 }) s)
    else offerStaged (auditRead a.next) none none .none s
  else s

/-! ### Faults (R117) -/

/-- The slot a location names, if it is one. -/
def Loc.slot? : Loc → Option Nat
  | .slot n => some n
  | .drive _ | .mouth _ | .cell => none

/-- The CELL order of a retirement has ended without a reel in the cell (R177). -/
def retireFailed (o : ArmOrder) (e : WearEvent) (s : State) : State :=
  match o.src.slot?, o.volser with
  | some slot, some v => abandonRetirement slot v e s
  | _, _ => s

/-- A dropped pick is told to the owner of its from-location: the Lane Unit for a mouth, the Mount Unit for a drive (R91, R146). -/
def droppedPick (o : ArmOrder) (s : State) : State :=
  if o.form = .pick then
    match o.src, o.mountId with
    | .mouth d, _ => laneEmpty d true s
    | .drive d, some id => emptyDrive d id s
    | _, _ => s
  else s

/-- The block that queued a dropped order is told ARM (R117). A record that the dropped pick of a mouth served fails ARM too, and not
TRANSIT (assumption 58). -/
def toldArm (o : ArmOrder) (s : State) : State :=
  match o.queuedBy with
  | .mount | .lane => failOf o .arm s
  | .negotiation => holderFailed o .arm s
  | .wear => retireFailed o .abandonedArm s
  | .audit =>
    match o.src.slot? with
    | some slot => finishAudit (auditDropped slot s)
    | none => s

/-- The next head's pick is queued after a head's pick has ended (R145, R146). -/
def nextHead (o : ArmOrder) (s : State) : State :=
  match o.form, o.src with
  | .pick, .mouth d => queueHead d s
  | _, _ => s

/-- The order's second fault: it is dropped (R117). ARM FAULT SECOND is posted before the notices of the blocks that are told (assumption
72). -/
def dropOrder (o : ArmOrder) (r : ArmResult) (s : State) : State :=
  let s := postSeq (o.faultNotice r true) (abandonOrder o .fault s)
  let s := match o.form, o.volser with
    | .readOnly, _ | _, none => s
    | _, some v => markHeldMissing v s
  nextHead o (toldArm o (droppedPick o s))

/-- A fault of the order in flight (R117). -/
def armFaulted (o : ArmOrder) (r : ArmResult) (s : State) : State :=
  if o.faultTaken then dropOrder o r s
  else postSeq (o.faultNotice r false) (setInArm { o with faultTaken := true } .fault s)

/-! ### A pick with its reel in hand (R123, R126, R130) -/

/-- The record becomes the place order, and the owner of the from-location is told: the head leaves its lane, the drive is freed,
the cell position is given back (R122, R123). -/
def reelInHand (o : ArmOrder) (s : State) : State :=
  let s := setInArm { o with form := .place, phases := phasesOf .place false } .holding s
  match o.src, o.mountId with
  | .mouth d, _ => headGone d s
  | .drive d, some id => emptyDrive d id s
  | .cell, _ => releaseSrc o s
  | .drive _, none | .slot _, _ => s

/-- The return check made as a pick from a drive or a mouth completes: it supplies the slot, or the reel goes to the cell with a
REMOVE prompt (R7, R108, R145). -/
def homeCheck (o : ArmOrder) (s : State) : State :=
  match o.purpose, o.src, o.dst, o.volser with
  | .returnLeg, .drive _, .slot _, some v | .returnLeg, .mouth _, .slot _, some v =>
    match s.returnCheck v with
    | some slot => updOrder o.number (fun o => { o with dst := .slot slot }) s
    | none => redirect o.number .cell .remove none s
  | _, _, _, _ => s

/-- The reel is in hand and its label, where it was read, matches (R123). -/
def pickDone (o : ArmOrder) (s : State) : State := nextHead o (homeCheck o (reelInHand o s))

/-- The home entry of a reel whose slot gave another label is marked missing (R9, R73). -/
def markMisread (o : ArmOrder) (s : State) : State :=
  match o.src, o.volser with
  | .slot n, some v => markMissing n v s
  | _, _ => s

/-- A MISMATCH: the reel goes to the cell with a MISFILE prompt, and the queuing block is told (R73, R105, R126). -/
def pickMismatch (o : ArmOrder) (read : Volser) (s : State) : State :=
  let s := redirect o.number .cell (.wrongLabel read) none (markMisread o (reelInHand o s))
  match o.queuedBy with
  | .negotiation => holderFailed o .misfiled s
  | .mount | .lane | .wear | .audit =>
    match s.recordOf o with
    | some m => recordMisfiled m.id s
    | none => s

/-- A second UNREADABLE: the reel goes to the cell with an UNREADABLE prompt (R73, R126, R130). -/
def pickUnreadable (o : ArmOrder) (s : State) : State :=
  let s := redirect o.number .cell .unreadable none (reelInHand o s)
  match o.queuedBy with
  | .negotiation => holderFailed o .unreadable s
  | .mount | .lane | .wear | .audit => s

/-- The first UNREADABLE: REPEAT READ is sent, the order stays in flight (R83, R130). -/
def repeatRead (o : ArmOrder) (s : State) : State :=
  let s := sendArm (.repeatRead o.number) (setInArm { o with repeatUsed := true } .busy s)
  { s with seq := { s.seq with repeatSent := true, ref := some (s.locPoint o.dst) } }

def setHint (h : Hint) (s : State) : State := { s with seq := { s.seq with hint := h } }

/-- A pick has completed OK (R123). -/
def pickOk (o : ArmOrder) (reading : List Nat) (s : State) : State :=
  if o.readRan then
    match labelSearch o.volser s.seq.hint reading with
    | .found h => pickDone o (setHint h s)
    | .accepted _ h => pickDone o (setHint h s)
    | .mismatch v => pickMismatch o v s
    | .unreadable => if o.repeatUsed then pickUnreadable o s else repeatRead o s
  else pickDone o s

/-! ### An audit read (R129, R132) -/

/-- An audit read leaves the sequencer with its outcome. -/
def readEnded (o : ArmOrder) (out : AuditOutcome) (s : State) : State :=
  match o.src.slot? with
  | some slot => finishAudit (auditEnded slot out (abandonOrder o .idle s))
  | none => abandonOrder o .idle s

/-- An audit read has completed OK. -/
def readOk (o : ArmOrder) (reading : List Nat) (s : State) : State :=
  match labelSearch none s.seq.hint reading with
  | .found h => readEnded o .unreadable (setHint h s)
  | .accepted v h => readEnded o (.read v) (setHint h s)
  | .mismatch v => readEnded o (.read v) s
  | .unreadable => if o.repeatUsed then readEnded o .unreadable s else repeatRead o s

/-! ### A place (R123, R125) -/

/-- The ring and counts a reel brings home: the routing record's when it came by lane, and otherwise the mount record's (R8,
R145). -/
def State.carried (s : State) (o : ArmOrder) : Bool × Option Counts :=
  match o.routing, s.recordOf o with
  | some r, _ => (r.ring, r.counts)
  | none, some m => (m.ring != .absent, m.counts)
  | none, none => (false, none)

/-- A place into a home slot has completed: the return completion, then the record's closure (R8, R105). -/
def placedInSlot (o : ArmOrder) (n : Nat) (s : State) : State :=
  match o.volser with
  | some v => closeOf o (returnCompletion n v (s.carried o).1 (s.carried o).2 s)
  | none => closeOf o s

/-- A place into a cell position has completed: the position becomes HOLDING with the order's volser, named by the prompt the order
calls for, whose own volser after a MISMATCH is the one read (R122, R126, R177). A REMOVE prompt carries no mount id (assumption 78). -/
def placedInCell (o : ArmOrder) (v : Volser) (i : Nat) (s : State) : State :=
  match o.cellUse with
  | .none | .remove => closeOf o (postCellReel (Prompt.blank .remove v) v i s)
  | .wrongLabel r =>
    closeOf o (postCellReel { Prompt.blank .misfile r with cause := some .wrongLabel, mountId := o.mountId } v i s)
  | .slotOccupied =>
    closeOf o (postCellReel { Prompt.blank .misfile v with cause := some .slotOccupied, mountId := o.mountId } v i s)
  | .unreadable => postCellReel { Prompt.blank .unreadable v with mountId := o.mountId } v i s
  | .ring =>
    match o.mountId with
    | some id => ringPlaced id i s
    | none => s
  | .retire =>
    match o.src.slot? with
    | some slot => retirePlaced slot v i s
    | none => s

/-- What the Mount Unit queues in answer to a completed place, once the arm has had its choice (R102, R107, R116). -/
def answerPlace (o : ArmOrder) (pickBack : Bool) (s : State) : State :=
  match o.mountId with
  | some id => if pickBack then queuePickBack id (selectArm s) else if o.cellUse = .ring then ringTurned id (selectArm s) else s
  | none => s

/-- A place has completed OK (R123). -/
def placeOk (o : ArmOrder) (s : State) : State :=
  let s := leaveArm .idle s
  match o.dst with
  | .slot n => placedInSlot o n s
  | .mouth d => closeOf o (depositReel d o s)
  | .drive d =>
    match o.mountId with
    | some id => answerPlace o (placedOnDrive d id s).2 (placedOnDrive d id s).1
    | none => s
  | .cell =>
    match o.dstPos, o.volser with
    | some i, some v => answerPlace o false (placedInCell o v i s)
    | _, _ => s

/-- A place has ended DEST OCCUPIED at a slot, drive or mouth: the reel stays in hand (R125). -/
def destOccupied (o : ArmOrder) (s : State) : State :=
  let s := setInArm o .holding s
  match o.dst with
  | .slot n =>
    redirect o.number .cell .slotOccupied none
      (match o.volser with
        | some v => markMissing n v s
        | none => s)
  | .drive d =>
    match o.mountId with
    | some id => driveOccupied d id s
    | none => s
  | .mouth _ => updOrder o.number (fun o => { o with laneRetry := true }) s
  | .cell => s

/-! ### SOURCE EMPTY (R124) -/

/-- A pick from a slot found none. -/
def slotEmpty (o : ArmOrder) (n : Nat) (s : State) : State :=
  let s := match o.volser with
    | some v => markMissing n v s
    | none => s
  match o.queuedBy with
  | .mount => failOf o .missing s
  | .negotiation => holderFailed o .missing s
  | .wear => retireFailed o .abandonedEmpty s
  | .lane | .audit => s

/-- A pick-back found none on the drive (R91, R105). -/
def driveEmpty (o : ArmOrder) (d : Nat) (s : State) : State :=
  match s.recordOf o with
  | some m =>
    let s := failAndClose m.id .missing (emptyDrive d m.id s)
    if m.home = some s.addr then markHeldMissing m.volser s else s
  | none => s

/-- A pick or read ended SOURCE EMPTY. -/
def sourceEmpty (o : ArmOrder) (s : State) : State :=
  if o.form = .readOnly then readEnded o .slotEmpty s
  else
    let s := abandonOrder o .idle s
    match o.src with
    | .slot n => slotEmpty o n s
    | .drive d => driveEmpty o d s
    | .mouth d => nextHead o (selectArm (failOf o .transit (laneEmpty d false s)))
    | .cell => failOf o .notOnShelf s

/-! ### COMPLETION and ARM RESUME -/

/-- The effect of a COMPLETION on the order in flight, by its result (R117, R123 to R126). -/
def applyCompletion (o : ArmOrder) (r : ArmResult) (symbols : Option (List Nat)) (s : State) : State :=
  if o.faults r symbols then armFaulted o r s
  else
    match r, o.form with
    | .sourceEmpty, _ => sourceEmpty o s
    | .destOccupied, _ => destOccupied o s
    | .ok, .place => placeOk o s
    | .ok, .pick => pickOk o ((readingOf symbols).getD []) s
    | .ok, .readOnly => readOk o ((readingOf symbols).getD []) s
    | .gripFault, _ | .armFault, _ => s

/-- A COMPLETION from the arm; one that names another order, or that comes while the arm is not BUSY, is discarded with the
notice PROTOCOL (R116, R119). -/
def onCompletion (number : Nat) (r : ArmResult) (symbols : Option (List Nat)) (s : State) : State :=
  match s.seq.arm, s.seq.inArm with
  | .busy, some o => if o.number = number then applyCompletion o r symbols s else postSeq (.armProtocol number r) s
  | _, _ => postSeq (.armProtocol number r) s

/-- The last message sent for the order in the arm position is sent again (R118). An ORDER carries the order's ends as they stand, and A is
set to its to-location, so that a redirect since the last issue shows in both (R83, R115, assumption 65). -/
def resendArm (o : ArmOrder) (s : State) : State :=
  if s.seq.repeatSent then
    let s := sendArm (.repeatRead o.number) (setInArm o .busy s)
    { s with seq := { s.seq with ref := some (s.locPoint o.dst) } }
  else issue o s

/-! ### Waiting offers -/

/-- A waiting offer leaves the line. -/
def dropOffer (w : WaitingOffer) (s : State) : State :=
  { s with seq := { s.seq with waiting := dropFirst w s.seq.waiting } }

/-- A pick that takes the reel of a turning-back or returning record home from the cell has its return check when it is queued (R7,
R108); any other order is taken as it was offered. -/
def recheckOffer (o : ArmOrder) (s : State) : ArmOrder :=
  match o.src, s.recordOf o with
  | .cell, some m => if m.turningBack || m.stage = .returning then o.toDest (s.checkedDest m) else o
  | _, _ => o

/-- A waiting offer is taken. -/
def runOffer (w : WaitingOffer) (s : State) : State :=
  match w with
  | .order o p st => takeOffer (recheckOffer o s) p st s
  | .laneHead d => takeLaneHead d s
  | .sourceLocal id => sourceLocal id s

/-- The waiting order offer made earliest is taken, when fewer than 12 orders are queued (R114). -/
def takeWaitingOffer (s : State) : State :=
  match s.seq.waiting.find? WaitingOffer.isOrder with
  | some w => if s.seq.queue.length < Config.orderPlaces then runOffer w (dropOffer w s) else s
  | none => s

/-- The local sourcing of a record that waits, when the order queue can take its order (R97). -/
def sourceWaiting (id : ReqId) (s : State) : State :=
  if s.seq.waiting.contains (.sourceLocal id) && s.orderRoom then sourceLocal id (dropOffer (.sourceLocal id) s) else s

end Sys2Proof.Machine
end

