-- ==== Sys2Proof/Machine/Peers.lean ====
section
/-! DEFINITION. The line as the station hears it (sections 2.2 to 2.8): presence, restarts and returns, duplicates, what each
frame kind does, delivery failures, address conflict, and the clock tick. -/

namespace Sys2Proof.Machine

/-! ### Peers (R39 to R42) -/

/-- The peer table entry of an address (R39). -/
def State.peer (s : State) (a : Nat) : Peer := (tableGet s.line.peers a).getD Peer.unknown

def setPeer (a : Nat) (p : Peer) (s : State) : State :=
  { s with line := { s.line with peers := tableSet Peer.unknown s.line.peers a p } }

/-- The silence limit: robustness × presence interval (R39). -/
def State.silenceLimit (s : State) : Nat := s.timers.robustness * s.timers.presence

/-- The remote prompts of a peer are removed (R169). -/
def dropRemote (a : Nat) (s : State) : State :=
  { s with prm := { s.prm with remote := s.prm.remote.filter fun e => e.station != a } }

/-- The lane to a neighbour goes DOWN (R40, R148). -/
def lanesDown (a : Nat) (s : State) : State :=
  match s.sideOf a with
  | some d => laneDown d s
  | none => s

/-- A peer is marked DOWN, and three blocks are told; a peer already DOWN causes no second report (R40). Its silence timer stops and
holds 0 while it is stopped (assumption 53). -/
def markDown (a : Nat) (s : State) : State :=
  if (s.peer a).presence = .down then s
  else
    dropRemote a (lanesDown a (forgetHolder a
      (setPeer a { s.peer a with presence := .down, silence := 0 } s)))

/-- The dedupe entry of a source is emptied (R33). -/
def dropDedupe (a : Nat) (s : State) : State :=
  { s with line := { s.line with dedupe := tableDrop s.line.dedupe a } }

/-- A peer's return to UP is reported to the Lane Unit (R42). -/
def reportReturn (a : Nat) (s : State) : State :=
  match s.sideOf a with
  | some d => laneReturn d s
  | none => s

/-- A frame other than a HELLO has been heard from a peer (R39, R42). A return is reported before the frame reaches its block
(assumption 54). -/
def touchPeer (a : Nat) (s : State) : State :=
  let p := s.peer a
  let s' := setPeer a { p with presence := .up, silence := s.silenceLimit } s
  if p.presence = .down then reportReturn a s' else s'

/-- Whether a HELLO shows its sender restarted (R41). -/
def Peer.restarted (p : Peer) (h : HelloFields) : Bool :=
  match p.hello with
  | some old => h.uptime < old.uptime
  | none => false

/-- A restart is reported to four blocks, one after the other: the Directory, the Negotiation Unit, the Lane Unit, the prompt list
(R41; the order is the model's, assumption 70). -/
def reportRestart (a : Nat) (h : HelloFields) (s : State) : State :=
  let s := originsRestart a (forgetHolder a s)
  dropRemote a
    (match s.sideOf a with
      | some d => laneRestart d h s
      | none => s)

/-- A peer's HELLO: the restart test, the new contents, the reports, and the contents handed to the Lane Unit (R39, R41, R42). -/
def onHello (a : Nat) (h : HelloFields) (s : State) : State :=
  let p := s.peer a
  let s' := setPeer a ⟨.up, s.silenceLimit, some h⟩ s
  if p.restarted h then reportRestart a h (dropDedupe a s')
  else if p.presence = .down then laneHello a h (reportReturn a s')
  else laneHello a h s'

/-! ### Address conflict (R43) -/

/-- Every frame queued or waiting is discarded; a timer that a waiting frame would start on entering starts now (R43). -/
def discardFrames (s : State) : State :=
  let s' := { s with line := { s.line with
    queue := [], waiting := [], phase := .idle, attempt := 0, retries := 0, backoff := 0, presence := none } }
  s.line.waiting.foldl (fun s f => frameEntered f s) s'

/-- A HELLO with this station's own address (R43, R201). -/
def enterConflict (s : State) : State :=
  if s.host.state = .conflict then s
  else
    let s := discardFrames s
    postHost (.addressConflict s.addr) { s with host := { s.host with state := .conflict } }

/-! ### The frames (R25 to R28, R32, R33) -/

/-- Whether the station is on the line: RUNNING or QUIESCED (R28). -/
def State.onLine (s : State) : Bool := s.host.state = .running || s.host.state = .quiesced

/-- A LOCATE from another station is answered from the catalogue (R12). -/
def onLocate (src : Nat) (id : ReqId) (v : Volser) (s : State) : State :=
  match s.homeOf v with
  | some (slot, e) => offerTo src (.holding id v slot e.pool e.ring e.state) s
  | none => s

/-- A PROMPT NOTICE joins the remote prompt list (R169). -/
def onNotice (src n : Nat) (k : PromptKind) (v : Volser) (s : State) : State :=
  let l := s.prm.remote.filter fun e => !(e.station == src && e.number == n)
  let l := if l.length < Config.remotePlaces then l else l.tail
  { s with prm := { s.prm with remote := l ++ [⟨src, n, k, v⟩] } }

/-- A PROMPT CLEARED removes its entry (R169). -/
def onCleared (src n : Nat) (s : State) : State :=
  { s with prm := { s.prm with remote := s.prm.remote.filter fun e => !(e.station == src && e.number == n) } }

/-- What the block that acts on a frame's kind does with it, in RUNNING or QUIESCED (R28). -/
def actOn (src : Nat) (b : Body) (s : State) : State :=
  match b with
  | .hello _ => s
  | .locate id v => onLocate src id v s
  | .holding id v slot pool ring st => onHolding src id v slot pool ring st (learn src v slot pool ring st s)
  | .offer id t spec => bidFor id t.write spec t.loc s
  | .bid id e d => onBid src id e d s
  | .award id t d => onAward src id t d s
  | .accept id _ => onAccept src id s
  | .decline id _ => onDecline src id s
  | .revoke id => onRevoke src id s
  | .cancel id => onCancel src id s
  | .progress id => onProgress src id s
  | .result id k g => onResult src id k g s
  | .fetch id v slot dest cls => onFetch src id v slot dest cls s
  | .notHere id v r => onNotHere src id v r s
  | .deposit r => onDeposit src r s
  | .credit lane n => onCredit src lane n s
  | .promptNotice n k v => onNotice src n k v s
  | .promptCleared n => onCleared src n s
  | .ack => s

/-- A HOLDING heard, offered to the Directory for learning (R15). -/
def learnFrom (src : Nat) (b : Option Body) (s : State) : State :=
  match b with
  | some (.holding _ v slot pool ring st) => learn src v slot pool ring st s
  | _ => s

/-- A frame with a field outside its tables is discarded by the block that acts on its kind (R46); a NOT HERE so discarded by the
Negotiation Unit still has the Directory forget its volser (R17, R73, assumption 15). -/
def unusable (k : FrameKind) (payload : List Byte) (s : State) : State :=
  match k, payload with
  | .notHere, [_, _, v1, v2, v3, v4, v5, v6, _] => forgetVolser (volserOf v1 v2 v3 v4 v5 v6) s
  | _, _ => s

/-- The block that acts on a frame's kind takes what its payload says (R28, R46). -/
def passOn (src : Nat) (k : FrameKind) (payload : List Byte) (s : State) : State :=
  match bodyOf k payload with
  | some b => actOn src b s
  | none => unusable k payload s

/-- A unicast frame addressed to this station: a duplicate is acknowledged again and discarded, any other is accepted,
acknowledged and passed (R32). -/
def acceptUnicast (src seq : Nat) (k : FrameKind) (payload : List Byte) (s : State) : State :=
  if tableGet s.line.dedupe src = some seq then sendAck src seq s
  else
    passOn src k payload (sendAck src seq
      { s with line := { s.line with dedupe := tablePut s.line.dedupe src seq } })

/-- A peer's frame that has passed the tests, in RUNNING, QUIESCED or CONFLICT (R28). -/
def takePeerFrame (k : FrameKind) (f : RawFrame) (s : State) : State :=
  let src := f.src.toNat
  let body := bodyOf k f.payload
  match body with
  | some (.hello h) => onHello src h s
  | _ =>
    let mine := f.dst.toNat = s.addr
    let s := if !k.broadcast && !mine && k != .ack then dropDedupe src s else s
    let s := touchPeer src s
    if s.onLine then
      if k = .ack then if mine then takeAck src f.seq.toNat s else s
      else if k.broadcast then passOn src k f.payload s
      else if mine then acceptUnicast src f.seq.toNat k f.payload s
      else learnFrom src body s
    else learnFrom src body s

/-- A frame is heard while the station is not sending (R25 to R28, R43). -/
def hear (k : FrameKind) (f : RawFrame) (s : State) : State :=
  if s.line.phase = .sending ∨ framePasses k f = false then s
  else if f.src.toNat = s.addr then if k = .hello then enterConflict s else s
  else if s.host.state = .config then s
  else takePeerFrame k f s

/-- Bytes heard whose check is in doubt: they are taken as the frame they spell, and discarded when they spell none (R25,
assumption 31). -/
def hearBytes (bytes : List Byte) (s : State) : State :=
  match frameOfBytes bytes with
  | some (k, f) => hear k f s
  | none => s

/-! ### Delivery failure (R34) -/

/-- The block that queued a failed unicast frame acts on the report (R13, R55, R60, R62, R63, R96, R98, R140, R145). -/
def undelivered (dst : Nat) (b : Body) (s : State) : State :=
  match b with
  | .bid id _ _ => dropBid id s
  | .award id _ _ => awardUndelivered dst id s
  | .accept id _ => onRevoke dst id s
  | .fetch id _ _ _ _ => fetchUndelivered id s
  | .deposit r => depositUndelivered dst r s
  | .credit _ n => creditUndelivered dst n s
  | .hello _ | .locate _ _ | .holding _ _ _ _ _ _ | .offer _ _ _ | .decline _ _ | .revoke _ | .cancel _ | .progress _
  | .result _ _ _ | .notHere _ _ _ | .promptNotice _ _ _ | .promptCleared _ | .ack => s

/-- Whether three unanswered retries of the kind mark its destination DOWN (R34). -/
def Body.marksDown (b : Body) : Bool :=
  match b.kind with
  | .credit | .deposit | .fetch => true
  | _ => false

/-- The frame in service has failed (R34). -/
def frameFailed (unanswered : Bool) (s : State) : State :=
  match s.line.queue with
  | [] => s
  | f :: _ =>
    let s := leaveQueue s
    match f.dst with
    | none => s
    | some a => undelivered a f.body (if unanswered && f.body.marksDown then markDown a s else s)

/-- An echoed byte does not match: the attempt has collided (R30). -/
def attemptCollided (s : State) : State :=
  if s.line.phase = .sending then
    if s.line.attempt < 16 then
      { s with line := { s.line with phase := .idle, backoff := backoffSlots s.addr s.line.attempt } }
    else frameFailed false s
  else s

/-- The acknowledge wait ends without the ACK: a retry, or after the third the failure (R31). -/
def ackWaitEnded (s : State) : State :=
  if s.line.phase = .ackWait then
    if s.line.retries < 3 then
      { s with line := { s.line with phase := .idle, attempt := 0, retries := s.line.retries + 1 } }
    else frameFailed true s
  else s

/-! ### Seconds -/

/-- A countdown moved by one second. -/
def tick (t : Option Nat) : Option Nat := t.map (· - 1)

/-- A second passes: the clock advances, and every countdown in seconds moves (R14, R38, R40, R64, R98, R102, R200). The expiries
are events of their own (assumption 5). -/
def clockTick (s : State) : State :=
  if s.host.clockRuns && decide (s.clock < Config.top32) then
    { s with
      host := { s.host with clock := s.clock + 1 }
      dir := { s.dir with learnt := s.dir.learnt.map fun e => (e.1, { e.2 with lifetime := e.2.lifetime - 1 }) }
      line := { s.line with
        presence := tick s.line.presence
        peers := s.line.peers.map fun e =>
          (e.1, if e.2.presence = .up then { e.2 with silence := e.2.silence - 1 } else e.2) }
      neg := { s.neg with origins := s.neg.origins.map fun o => { o with watch := tick o.watch } }
      mnt := { s.mnt with mounts := s.mnt.mounts.map fun m =>
        { m with arrivalLimit := tick m.arrivalLimit, loadWait := tick m.loadWait } } }
  else s

/-- The presence timer expires: another HELLO is offered and the timer runs again (R38). -/
def presenceExpired (s : State) : State :=
  if s.line.presence = some 0 ∧ s.onLine = true then
    offerHello { s with line := { s.line with presence := some s.timers.presence } }
  else s

/-- A peer's silence timer has reached 0 (R40). -/
def silenceExpired (a : Nat) (s : State) : State :=
  if (s.peer a).presence = .up ∧ (s.peer a).silence = 0 then markDown a s else s

/-- A learnt entry's lifetime has reached 0 (R14). -/
def learntExpired (position : Nat) (s : State) : State :=
  match tableGet s.dir.learnt position with
  | some e =>
    if e.lifetime = 0 then { s with dir := { s.dir with learnt := tableDrop s.dir.learnt position } } else s
  | none => s

end Sys2Proof.Machine
end

