-- ==== Sys2Proof/Machine/Console.lean ====
section
/-! DEFINITION. The console (sections 8.3 to 8.5): the keys, the answers kind by kind, reminders, escalation and expiries. -/

namespace Sys2Proof.Machine

/-! ### Answers (R160, R162 to R165) -/

/-- DONE adds an operator action to the live record the prompt serves (R160, step 1). -/
def countAction (p : Prompt) (s : State) : State :=
  match p.mountId with
  | some id => updMount id (fun m => { m with operatorActions := satAdd 3 m.operatorActions 1 }) s
  | none => s

/-- The live record a prompt serves. -/
def State.promptRecord (s : State) (p : Prompt) : Option MountRec := p.mountId.bind s.mount

/-- DONE on a FETCH prompt (R100, R162). -/
def fetchDone (p : Prompt) (i : Nat) (m : MountRec) (s : State) : State :=
  let s := setCell i (.holding (.prompt p.number) (some p.volser)) s
  let s := updMount m.id (fun m => { m with manual := true, ring := if p.ringWanted then .inserted else m.ring }) s
  offerStaged { m.leg true .cell ⟨.drive m.drive, .none, none⟩ with srcPos := some i }
    (some p.number) (some .toDrive) .done s

/-- A FETCH prompt ends without its reel and its record fails (R100, R162). -/
def fetchFailed (p : Prompt) (r : FailReason) (s : State) : State :=
  let s := endPrompt p.number s
  match p.mountId with
  | some id => failAndClose id r s
  | none => s

/-- DONE on a RING prompt (R101, R163). -/
def ringDone (p : Prompt) (m : MountRec) (s : State) : State :=
  let s := updMount m.id (fun m => { m with ring := .inserted }) s
  offerStaged { m.leg false .cell ⟨.drive m.drive, .none, none⟩ with srcPos := p.cellPos } (some p.number) none .done s

/-- CANNOT on a RING prompt, or its expiry: NO RING, and the record turns back from the cell (R101, R107, R163). -/
def ringFailed (p : Prompt) (s : State) : State :=
  match p.mountId with
  | some id => ringReturn id p (failRecord id .noRing s)
  | none => s

/-- The re-read of an UNREADABLE reel for its record: to the drive, or to the return destination when the record turns back or
returns (R105, R164, assumption 35). -/
def rereadFor (p : Prompt) (m : MountRec) (s : State) : State :=
  let o :=
    if m.turningBack || m.stage = .returning then
      { (m.leg true .cell (s.checkedDest m)) with purpose := .returnLeg, cls := none }
    else m.leg true .cell ⟨.drive m.drive, .none, none⟩
  offerStaged { o with srcPos := p.cellPos } (some p.number) none .done s

/-- The holder's re-read: a RETURN LEG with READ to the home slot, carrying the entry's own ring (R164, assumption 18). -/
def rereadHome (p : Prompt) (slot : Nat) (e : HomeEntry) (s : State) : State :=
  let id := p.mountId.getD ⟨0, 0⟩
  let o := ArmOrder.offer .returnLeg true .cell (.slot slot) .negotiation
  offerStaged { o with
    srcPos := p.cellPos, mountId := p.mountId, volser := some p.volser
    routing := some ⟨p.volser, id, .toHome, some s.addr, e.ring, e.pool, 0, none⟩ }
    (some p.number) none .done s

/-- DONE on an UNREADABLE prompt (R164). -/
def unreadableDone (p : Prompt) (s : State) : State :=
  match s.promptRecord p with
  | some m => rereadFor p m s
  | none =>
    match s.homeOf p.volser with
    | some (slot, e) =>
      if e.state = .out ∨ e.state = .missing then rereadHome p slot e s else becomeRemove p.number s
    | none => becomeRemove p.number s

/-- CANNOT on an UNREADABLE prompt (R9, R105, R164). -/
def unreadableCannot (p : Prompt) (s : State) : State :=
  let s' := becomeRemove p.number (markHeldMissing p.volser s)
  match s.promptRecord p with
  | some m => failAndClose m.id .unreadable s'
  | none => s'

/-- A RETIRE prompt is answered: retire-finish, the prompt ends, and the Wear Monitor is told (R165, R178). -/
def retireAnswered (p : Prompt) (s : State) : State :=
  match p.slot with
  | some slot => retireEnded slot p.volser (endPrompt p.number (retireFinish slot p.volser s))
  | none => endPrompt p.number s

/-- DONE, by kind (R162 to R165). -/
def answerDone (p : Prompt) (s : State) : State :=
  match p.kind with
  | .fetch =>
    match p.cellPos, s.promptRecord p with
    | some i, some m => fetchDone p i m s
    | _, _ => s
  | .ring =>
    match s.promptRecord p with
    | some m => ringDone p m s
    | none => s
  | .unreadable => unreadableDone p s
  | .retire => retireAnswered p s
  | .misfile | .remove | .unserved => endPrompt p.number s

/-- CANNOT, by kind (R162 to R165). -/
def answerCannot (p : Prompt) (s : State) : State :=
  match p.kind with
  | .fetch => fetchFailed p .notOnShelf s
  | .ring => ringFailed p s
  | .unreadable => unreadableCannot p s
  | .retire => retireAnswered p s
  | .misfile | .remove | .unserved => endPrompt p.number s

/-- An answer key: it is taken for the shown prompt when the unconfirmed mark is clear, and otherwise only clears the mark (R158,
R160). A DONE or CANNOT that is taken clears browsing (R157). -/
def answerKey (answer : Prompt → State → State) (s : State) : State :=
  match s.prm.shown.bind s.prompt with
  | none => s
  | some p =>
    if s.prm.unconfirmed then { s with prm := { s.prm with unconfirmed := false } }
    else answer p (clearEscalated p.number { s with prm := { s.prm with browsing := false } })

/-- The DONE key (R160). -/
def keyDone (s : State) : State := answerKey (fun p s => answerDone p (countAction p s)) s

/-- The CANNOT key (R160). -/
def keyCannot (s : State) : State := answerKey answerCannot s

/-- The prompt after the shown one in a list of numbers, if any. -/
def following (n : Nat) : List Nat → Option Nat
  | [] => none
  | m :: t => if m = n then t.head? else following n t

/-- The NEXT key (R157, R158). With no other prompt to show it changes nothing but the unconfirmed mark, which every key clears
(assumption 59). -/
def keyNext (s : State) : State :=
  match s.prm.shown with
  | none => s
  | some n =>
    let order := s.displayOrder.map (·.number)
    match following n order with
    | some m => { s with prm := { s.prm with shown := some m, browsing := true, unconfirmed := false } }
    | none =>
      { s with prm := { s.prm with
          shown := order.head?, browsing := s.prm.browsing && decide (order.length = 1), unconfirmed := false } }

/-! ### Timers (R162, R163, R167) -/

/-- Whether a number of seconds has passed since a reading of the clock. -/
def State.passed (s : State) (start seconds : Nat) : Bool := start + seconds ≤ s.clock

/-- The reminder time has passed: a QUEUED prompt becomes REMINDED; one whose escalation time is not greater goes straight to
ESCALATED (R167). -/
def reminded (n : Nat) (s : State) : State :=
  match s.prompt n with
  | some p =>
    match p.timerStart with
    | some t =>
      if p.stage = .queued ∧ p.answer = Answered.none ∧ s.passed t s.timers.reminder = true
          ∧ s.timers.reminder < s.timers.escalation then
        updPrompt n (fun p => { p with stage := .reminded }) s
      else s
    | none => s
  | none => s

/-- The escalation time has passed: the prompt becomes ESCALATED and a PROMPT NOTICE is offered (R167, R168). -/
def escalated (n : Nat) (s : State) : State :=
  match s.prompt n with
  | some p =>
    match p.timerStart with
    | some t =>
      if (p.stage = .queued ∨ p.stage = .reminded) ∧ p.answer = Answered.none
          ∧ s.passed t s.timers.escalation = true then
        offerAll (.promptNotice n p.kind p.volser)
          (updPrompt n (fun p => { p with stage := .escalated, notice := .offered }) s)
      else s
    | none => s
  | none => s

/-- The fetch expiry, from the posted time, in every stage (R162). -/
def fetchExpired (n : Nat) (s : State) : State :=
  match s.prompt n with
  | some p =>
    if p.kind = PromptKind.fetch ∧ p.answer = Answered.none ∧ s.passed p.posted s.timers.fetchExpiry = true then
      fetchFailed p .fetchTimeout s
    else s
  | none => s

/-- The ring expiry, from the posted time; its effect is that of CANNOT, PROMPT CLEARED first (R160, R163). -/
def ringExpired (n : Nat) (s : State) : State :=
  match s.prompt n with
  | some p =>
    if p.kind = PromptKind.ring ∧ p.answer = Answered.none ∧ s.passed p.posted s.timers.ringExpiry = true then
      ringFailed p (clearEscalated n s)
    else s
  | none => s

/-- The door switch moves; the console records it in every station state (R161). -/
def doorMoved (isOpen : Bool) (s : State) : State :=
  { s with pins := { s.pins with doorOpen := isOpen }, prm := { s.prm with doorOpen := isOpen } }

end Sys2Proof.Machine
end

