-- ==== Sys2Proof/Machine/Configure.lean ====
section
/-! DEFINITION. CONFIGURE (R198, R199): the items, their selectors, ranges and clamping, and START's check of them (R200). -/

namespace Sys2Proof.Machine

/-- What handling an item gives: its answer and the station after it. -/
structure ItemResult where
  answer : Answer
  state : State

/-- A quantity field of an item: the value carried, the nearest value in its range, whether that is another value. -/
def fitted (lo hi n : Nat) : Nat × Bool := (clampTo lo hi n, clampTo lo hi n != n)

/-- TAKEN, or CLAMPED with the values stored (R198). -/
def stored (fields : List (Nat × Bool)) : Answer :=
  if fields.any (·.2) then .clamped (fields.map (·.1)) else .taken

def updSettings (f : Settings → Settings) (s : State) : State :=
  { s with host := { s.host with settings := f s.host.settings } }

/-- A one-quantity item. -/
def quantityItem (lo hi : Nat) (put : Nat → Settings → Settings) (n : Nat) (s : State) : ItemResult :=
  ⟨stored [fitted lo hi n], updSettings (put (clampTo lo hi n)) s⟩

/-- A positional item of one grid point. -/
def pointItem (put : Point → Settings → Settings) (col tier : Nat) (s : State) : ItemResult :=
  ⟨stored [fitted 0 63 col, fitted 0 63 tier], updSettings (put ⟨clampTo 0 63 col, clampTo 0 63 tier⟩) s⟩

/-- A lane mouth item, refused for a side whose strap is absent (R198). -/
def mouthItem (d : Side) (put : Mouth → Settings → Settings) (col tier cap : Nat) (s : State) : ItemResult :=
  if s.fitted d then
    ⟨stored [fitted 0 63 col, fitted 0 63 tier, fitted 1 6 cap],
      updSettings (put ⟨⟨clampTo 0 63 col, clampTo 0 63 tier⟩, clampTo 1 6 cap⟩) s⟩
  else ⟨.badField (some d.code), s⟩

/-- A drive item (R90, R198). CLAMPED carries its two quantities, without the drive and the group (assumption 44). -/
def driveItem (d g col tier : Nat) (s : State) : ItemResult :=
  if s.mnt.drives.length ≤ d then ⟨.badField (some d), s⟩
  else if 15 < g then ⟨.badField (some g), s⟩
  else
    ⟨stored [fitted 0 63 col, fitted 0 63 tier],
      updDrive d (fun r => { r with group := some g, position := some ⟨clampTo 0 63 col, clampTo 0 63 tier⟩ }) s⟩

/-- The rate of one class is replaced (R180). -/
def Settings.putRate (c : Settings) (cls : Nat) (r : Rate) : Settings :=
  match cls with
  | 0 => { c with rate0 := r }
  | 1 => { c with rate1 := r }
  | 2 => { c with rate2 := r }
  | _ => { c with rate3 := r }

/-- A rate item (R180, R198). -/
def rateItem (cls fee time : Nat) (s : State) : ItemResult :=
  if 3 < cls then ⟨.badField (some cls), s⟩ else ⟨.taken, updSettings (fun c => c.putRate cls ⟨fee, time⟩) s⟩

/-- The range of a timer, in the unit carried (R199). -/
def timerRange : Nat → Option (Nat × Nat)
  | 1 => some (1, 30)
  | 2 => some (1, 4)
  | 3 => some (10, 255)
  | 4 => some (10, 255)
  | 5 => some (10, 255)
  | 6 => some (60, 3600)
  | 7 => some (30, 3600)
  | 8 => some (60, 3600)
  | 9 => some (10, 255)
  | 10 => some (30, 3600)
  | 11 => some (60, 7200)
  | 12 => some (60, 14400)
  | 13 => some (60, 14400)
  | _ => none

/-- A timer set to a value in the unit carried; the three line windows are kept in milliseconds (R199). -/
def Timers.put (t : Timers) (k n : Nat) : Timers :=
  match k with
  | 1 => { t with presence := n }
  | 2 => { t with robustness := n }
  | 3 => { t with bidWindow := 10 * n }
  | 4 => { t with awardAnswer := 10 * n }
  | 5 => { t with locateWindow := 10 * n }
  | 6 => { t with learntLifetime := n }
  | 7 => { t with mountWatch := n }
  | 8 => { t with arrivalLimit := n }
  | 9 => { t with loadWait := n }
  | 10 => { t with reminder := n }
  | 11 => { t with escalation := n }
  | 12 => { t with fetchExpiry := n }
  | 13 => { t with ringExpiry := n }
  | _ => t

/-- A timer item (R199). CLAMPED carries its value, without the timer's number (assumption 44). -/
def timerItem (k n : Nat) (s : State) : ItemResult :=
  match timerRange k with
  | some (lo, hi) =>
    ⟨stored [fitted lo hi n], updSettings (fun c => { c with timers := c.timers.put k (clampTo lo hi n) }) s⟩
  | none => ⟨.badField (some k), s⟩

/-- The wear item (R198, chapter 9). -/
def wearItem (w t k p : Nat) (s : State) : ItemResult :=
  ⟨stored [fitted 1 16 w, fitted 1 10000 t, fitted 1 3 k, (p, false)],
    updSettings (fun c => { c with
      window := clampTo 1 16 w, threshold := clampTo 1 10000 t, streak := clampTo 1 3 k, passLimit := p }) s⟩

/-- The spool item: the high mark first, then the low mark against the high mark as stored (R188, R198). -/
def spoolItem (high low : Nat) (s : State) : ItemResult :=
  let h := clampTo 16 480 high
  ⟨stored [fitted 16 480 high, fitted 0 (h - 16) low],
    updSettings (fun c => { c with high := h, low := clampTo 0 (h - 16) low }) s⟩

/-- The keywords, each by the symbol values of its two letters (R198). -/
inductive Keyword where
  | kc
  | kt
  | gp
  | hp
  | mp
  | rp
  | pk
  | dv
  | cl
  | wl
  | el
  | rt
  | hs
  | ms
  | rs
  | tm
  | wr
  | sp
deriving DecidableEq, Repr

def Keyword.ofLetters : Nat → Nat → Option Keyword
  | 20, 12 => some .kc
  | 20, 29 => some .kt
  | 16, 25 => some .gp
  | 17, 25 => some .hp
  | 22, 25 => some .mp
  | 27, 25 => some .rp
  | 25, 20 => some .pk
  | 13, 31 => some .dv
  | 12, 21 => some .cl
  | 32, 21 => some .wl
  | 14, 21 => some .el
  | 27, 29 => some .rt
  | 17, 28 => some .hs
  | 22, 28 => some .ms
  | 27, 28 => some .rs
  | 29, 22 => some .tm
  | 32, 27 => some .wr
  | 28, 25 => some .sp
  | _, _ => none

/-- An item of a known keyword; a value of another length is refused BAD FIELD (R198). -/
def configureItem (k : Keyword) (value : List Byte) (s : State) : ItemResult :=
  match k, value with
  | .kc, [n] => quantityItem 1 255 (fun n c => { c with kc := n }) n.toNat s
  | .kt, [n] => quantityItem 1 255 (fun n c => { c with kt := n }) n.toNat s
  | .gp, [a, b] => quantityItem 0 2550 (fun n c => { c with gp := n }) (num16 a b) s
  | .hp, [a, b] => quantityItem 0 25500 (fun n c => { c with hp := n }) (num16 a b) s
  | .mp, [a, b] => quantityItem 0 65534 (fun n c => { c with mp := n }) (num16 a b) s
  | .rp, [a, b] => quantityItem 0 65534 (fun n c => { c with rp := n }) (num16 a b) s
  | .pk, [c, t] => pointItem (fun p c => { c with park := some p }) c.toNat t.toNat s
  | .dv, [d, g, c, t] => driveItem d.toNat g.toNat c.toNat t.toNat s
  | .cl, [c, t] => pointItem (fun p c => { c with cell := some p }) c.toNat t.toNat s
  | .wl, [c, t, n] => mouthItem .west (fun m c => { c with west := some m }) c.toNat t.toNat n.toNat s
  | .el, [c, t, n] => mouthItem .east (fun m c => { c with east := some m }) c.toNat t.toNat n.toNat s
  | .rt, [c, f1, f0, t1, t0] => rateItem c.toNat (num16 f1 f0) (num16 t1 t0) s
  | .hs, [n] => quantityItem 0 255 (fun n c => { c with hopCharge := n }) n.toNat s
  | .ms, [a, b] => quantityItem 0 65535 (fun n c => { c with shelfCharge := n }) (num16 a b) s
  | .rs, [a, b] => quantityItem 0 65535 (fun n c => { c with ringCharge := n }) (num16 a b) s
  | .tm, [k, a, b] => timerItem k.toNat (num16 a b) s
  | .wr, [w, t1, t0, k, p1, p0] => wearItem w.toNat (num16 t1 t0) k.toNat (num16 p1 p0) s
  | .sp, [h1, h0, l1, l0] => spoolItem (num16 h1 h0) (num16 l1 l0) s
  | _, _ => ⟨.badField none, s⟩

/-- The drives that lack a DV item (R200). -/
def State.missingDrives (s : State) : List Nat :=
  (List.range s.mnt.drives.length).filter fun d =>
    match s.drive d with
    | some r => r.position.isNone
    | none => false

/-- A fitted side lacks its mouth (R200). -/
def State.mouthMissing (s : State) (d : Side) : Bool := s.fitted d && (s.settings.mouth d).isNone

/-- Every positional item START requires is present (R200). -/
def State.itemsComplete (s : State) : Bool :=
  s.settings.park.isSome && s.settings.cell.isSome && s.missingDrives.isEmpty && !s.mouthMissing .west
    && !s.mouthMissing .east

/-- The station starts: RUNNING, the clock at 0 and advancing, the first HELLO offered and the presence timer running (R38,
R200). -/
def startStation (s : State) : State :=
  offerHello { s with
    host := { s.host with state := .running, clock := 0, clockRuns := true }
    line := { s.line with presence := some s.timers.presence } }

end Sys2Proof.Machine
end

