-- ==== Sys2Proof/Machine/Commands.lean ====
section
/-! DEFINITION. The host port (chapter 11): the two FIFOs, the twenty commands, the checks of R196 and the report-place grant of
R197. -/

namespace Sys2Proof.Machine

/-! ### The record port (R195) -/

/-- The host writes a command record: taken at the tail of the command FIFO, or rejected while it holds 8. -/
def writeCommand (r : CmdRec) (s : State) : State :=
  if s.host.commands.length < Config.commandPlaces then
    { s with host := { s.host with commands := s.host.commands ++ [r], lastWrite := .taken } }
  else { s with host := { s.host with lastWrite := .rejected } }

/-- The host reads the report FIFO: the oldest record leaves it, or the empty indication is returned. -/
def readReport (s : State) : State :=
  match s.host.reports with
  | r :: rest => { s with host := { s.host with reports := rest, lastRead := .record r } }
  | [] => { s with host := { s.host with lastRead := .isEmpty } }

/-- A command's answer enters the report FIFO with its tag. -/
def answer (tag : Byte) (a : Answer) (s : State) : State := pushReport (.answer tag a) s

/-! ### Station commands (R198 to R202) -/

/-- CONFIGURE (R198). -/
def cmdConfigure (tag : Byte) (p : List Byte) (s : State) : State :=
  match p with
  | k1 :: k2 :: _ :: value =>
    match Keyword.ofLetters k1.toNat k2.toNat with
    | some k => answer tag (configureItem k value s).answer (configureItem k value s).state
    | none => answer tag .unknownItem s
  | _ => answer tag (.badField none) s

/-- START (R200). -/
def cmdStart (tag : Byte) (s : State) : State :=
  if s.itemsComplete then answer tag (.startTaken s.host.straps) (startStation s)
  else
    answer tag (.incomplete s.settings.park.isNone s.settings.cell.isNone s.missingDrives (s.mouthMissing .west)
      (s.mouthMissing .east)) s

def setStation (st : StationState) (s : State) : State := { s with host := { s.host with state := st } }

/-- QUIESCE (R201). -/
def cmdQuiesce (tag : Byte) (s : State) : State :=
  answer tag (.quiesceTaken s.live s.neg.origins.length) (setStation .quiesced s)

/-- RESUME (R201). -/
def cmdResume (tag : Byte) (s : State) : State := answer tag .resumeTaken (setStation .running s)

/-- What STATUS and VARIED show of a drive (R94, R202). -/
def DriveRec.status (r : DriveRec) : DriveStatus := ⟨r.state, r.variedOff, r.mountId⟩

/-- What STATUS and LANE VARIED show of a side. -/
def SideRec.status (r : SideRec) : SideStatus :=
  ⟨r.outbound, r.hold, r.agreed, r.available, r.reserved, r.inbound.length⟩

/-- The STATION section (R202). -/
def State.stationStatus (s : State) : StationStatus where
  state := s.host.state
  straps := s.host.straps
  clock := s.clock
  spoolState := s.acct.spoolState
  held := s.held
  live := s.live
  arm := s.seq.arm
  work := s.work
  reference := s.armRef
  hint := s.seq.hint
  doorOpen := s.prm.doorOpen
  drives := s.mnt.drives.map DriveRec.status
  positions := if s.host.state = .config then s.mnt.drives.map (·.position) else []
  west := (s.side .west).status
  east := (s.side .east).status
  origins := s.neg.origins.length
  prompts := s.prm.prompts.length

/-- The section a STATUS names (R202). -/
def State.statusSection (s : State) (n : Nat) : Answer :=
  match n with
  | 1 => .statusStation s.stationStatus
  | 2 => .statusPeers ((List.range 16).map s.peer)
  | 3 => .statusRemote s.prm.remote
  | _ => .badField none

/-- STATUS (R202). -/
def cmdStatus (tag n : Byte) (s : State) : State := answer tag (s.statusSection n.toNat) s

/-! ### Requests (R48, R69) -/

/-- The number the next request receives (R48). -/
def State.nextRequest (s : State) : Nat := freshNumber (s.neg.origins.map fun o => o.id.seq) s.neg.seqCounter

/-- An origin record as MOUNT makes it (R48). -/
def OriginRec.make (id : ReqId) (v : Volser) (spec : DriveSpec) (write : Bool) (cls account : Nat) (tag : Byte) :
    OriginRec where
  id := id
  volser := v
  spec := spec
  write := write
  cls := cls
  account := account
  tag := tag
  state := .locating
  loc := none
  locateAttempts := 0
  round := 1
  awardsMade := 0
  staleRetries := 0
  bids := []
  awardee := none
  locateWindow := none
  bidWindow := none
  awardAnswer := none
  watch := none
  ended := none
  noticeWaits := false
  promptWaits := false

/-- A MOUNT whose fields are good: DUPLICATE, FULL, or STARTED and the lookup (R48, R50). -/
def startRequest (tag : Byte) (v : Volser) (spec : DriveSpec) (write : Bool) (cls account : Nat) (s : State) : State :=
  if s.neg.origins.any (fun o => o.volser = v) then answer tag .duplicate s
  else if Config.originPlaces ≤ s.neg.origins.length then answer tag .full s
  else
    let id : ReqId := ⟨s.addr, s.nextRequest⟩
    lookupNew id v (answer tag (.started id)
      { s with neg := { s.neg with
          origins := s.neg.origins ++ [OriginRec.make id v spec write cls account tag]
          seqCounter := wrapSucc 256 s.nextRequest } })

/-- MOUNT (R48). -/
def cmdMount (tag : Byte) (p : List Byte) (s : State) : State :=
  match p with
  | [v1, v2, v3, v4, v5, v6, form, n, w, c, acc] =>
    let v := volserOf v1 v2 v3 v4 v5 v6
    match specOf form n, flagOf w with
    | some spec, some write =>
      if v.wellFormed && c.toNat ≤ 3 then startRequest tag v spec write c.toNat acc.toNat s
      else answer tag (.badField none) s
    | _, _ => answer tag (.badField none) s
  | _ => answer tag (.badField none) s

/-- CANCEL (R69). -/
def cmdCancel (tag : Byte) (id : ReqId) (s : State) : State :=
  match s.origin id with
  | none => answer tag .unknown s
  | some o =>
    match o.state with
    | .locating | .offered => answer tag .cancelTaken (endRequest id .cancelled s)
    | .awarding =>
      let s := answer tag .cancelTaken (endRequest id .cancelled s)
      match o.awardee with
      | some a => sendRevoke a id s
      | none => s
    | .awarded =>
      let s := answer tag .cancelTaken (updOrigin id (fun o => { o with state := .cancelling }) s)
      match o.awardee with
      | some a => sendCancel a id s
      | none => s
    | .cancelling => answer tag .cancelBusy s

/-! ### Directory commands (R19 to R23) -/

/-- DIR READ (R20). -/
def cmdDirRead (tag : Byte) (slot : Nat) (s : State) : State :=
  if slotFits slot then
    match s.entry slot with
    | some e => answer tag (.foundHome slot e) s
    | none => answer tag (.absentSlot slot) s
  else answer tag (.badField none) s

/-- Whether an entry's state makes DIR WRITE and DIR CLEAR busy (R21, R23). -/
def ReelState.busy : ReelState → Bool
  | .out | .retiring => true
  | .home | .retired | .missing => false

/-- The slot a DIR WRITE is refused BUSY for: the named slot or the slot that holds the volser, the lower of the two when both are
busy (R19, R21). -/
def State.busyFor (s : State) (slot : Nat) (v : Volser) : Option Nat :=
  let named := if (s.entry slot).any fun e => e.state.busy then some slot else none
  let holding := match s.homeOf v with
    | some (other, e) => if e.state.busy then some other else none
    | none => none
  match named, holding with
  | some a, some b => some (min a b)
  | some a, none => some a
  | none, b => b

/-- The slot other than the one named that holds the volser (R21). -/
def State.movedFrom (s : State) (slot : Nat) (v : Volser) : Option Nat :=
  match s.homeOf v with
  | some (other, _) => if other = slot then none else some other
  | none => none

/-- The wear record of a slot is cleared (R171). -/
def clearWear (slot : Nat) (s : State) : State := setWear slot WearRec.clear s

/-- The writing of a slot that is not busy: another entry that holds the volser is emptied, the learnt entry goes, the wear record
is cleared (R21). -/
def writeSlot (slot : Nat) (v : Volser) (pool : Nat) (ring : Bool) (s : State) : State :=
  let s' := match s.movedFrom slot v with
    | some other => dropEntry other s
    | none => s
  clearWear slot (forgetVolser v (setEntry slot ⟨v, pool, ring, .home, none⟩ s'))

/-- DIR WRITE (R21). -/
def dirWrite (tag : Byte) (slot : Nat) (v : Volser) (pool : Nat) (ring : Bool) (s : State) : State :=
  match s.busyFor slot v with
  | some busy => answer tag (.dirBusy busy) s
  | none =>
    let a := match s.entry slot with
      | some e => Answer.replaced slot e.volser (s.movedFrom slot v)
      | none => Answer.newEntry slot (s.movedFrom slot v)
    answer tag a (writeSlot slot v pool ring s)

/-- DIR WRITE, with its field checks (R19). -/
def cmdDirWrite (tag : Byte) (p : List Byte) (s : State) : State :=
  match p with
  | [s1, s0, v1, v2, v3, v4, v5, v6, po, ri] =>
    let v := volserOf v1 v2 v3 v4 v5 v6
    match flagOf ri with
    | some ring =>
      if slotFits (num16 s1 s0) && v.wellFormed && po.toNat ≤ 15 then
        dirWrite tag (num16 s1 s0) v po.toNat ring s
      else answer tag (.badField none) s
    | none => answer tag (.badField none) s
  | _ => answer tag (.badField none) s

/-- DIR DELETE of a slot (R22). -/
def deleteSlot (tag : Byte) (slot : Nat) (s : State) : State :=
  match s.entry slot with
  | none => answer tag (.absentSlot slot) s
  | some e =>
    if e.state = .retiring then answer tag (.dirBusy slot) s
    else answer tag (.deletedHome slot e) (dropEntry slot s)

/-- DIR DELETE of a learnt volser (R22). -/
def deleteLearnt (tag : Byte) (v : Volser) (s : State) : State :=
  match s.learntOf v with
  | some (_, e) => answer tag (.deletedLearnt e) (forgetVolser v s)
  | none => answer tag (.absentVolser v) s

/-- DIR DELETE (R22). -/
def cmdDirDelete (tag : Byte) (p : List Byte) (s : State) : State :=
  match p with
  | [form, s1, s0, v1, v2, v3, v4, v5, v6] =>
    let v := volserOf v1 v2 v3 v4 v5 v6
    if form = 1 then
      if slotFits (num16 s1 s0) then deleteSlot tag (num16 s1 s0) s else answer tag (.badField none) s
    else if form = 2 then
      if v.wellFormed then deleteLearnt tag v s else answer tag (.badField none) s
    else answer tag (.badField none) s
  | _ => answer tag (.badField none) s

/-- DIR SEARCH (R20). -/
def cmdDirSearch (tag : Byte) (v : Volser) (s : State) : State :=
  if v.wellFormed then
    match s.lookup v with
    | .home slot e => answer tag (.foundHome slot e) s
    | .learnt e => answer tag (.foundLearnt e) s
    | .unknown => answer tag (.absentVolser v) s
  else answer tag (.badField none) s

/-- The entries a DIR CLEAR selector matches, or none for a selector outside the table of R23. -/
def clearSelector (selector n : Nat) : Option (HomeEntry → Bool) :=
  if selector = 1 then if n ≤ 15 then some fun e => e.pool == n else none
  else if selector = 2 then
    match ReelState.ofCode n with
    | some .home => some fun e => e.state == .home
    | some .retired => some fun e => e.state == .retired
    | some .missing => some fun e => e.state == .missing
    | _ => none
  else none

/-- DIR CLEAR of the entries that match: refused BUSY while any of them is OUT or RETIRING (R23). -/
def clearEntries (tag : Byte) (matched : HomeEntry → Bool) (s : State) : State :=
  match s.dir.catalog.filter fun e => matched e.2 && e.2.state.busy with
  | e :: rest => answer tag (.clearBusy e.1 (rest.length + 1)) s
  | [] =>
    answer tag (.cleared (s.dir.catalog.filter fun e => matched e.2).length)
      { s with dir := { s.dir with catalog := s.dir.catalog.filter fun e => !matched e.2 } }

/-- DIR CLEAR (R23). -/
def cmdDirClear (tag : Byte) (selector n : Byte) (s : State) : State :=
  match clearSelector selector.toNat n.toNat with
  | some matched => clearEntries tag matched s
  | none => answer tag (.badField none) s

/-! ### Drives, lanes, audit, arm (R94, R118, R131, R151) -/

/-- VARY DRIVE (R94): 1 OFF, 2 ON. -/
def cmdVaryDrive (tag : Byte) (d n : Nat) (s : State) : State :=
  match s.drive d with
  | some r =>
    if n = 1 ∨ n = 2 then
      answer tag (.varied { r with variedOff := decide (n = 1) }.status)
        (updDrive d (fun r => { r with variedOff := decide (n = 1) }) s)
    else answer tag (.badField none) s
  | none => answer tag (.badField none) s

/-- The LANE VARIED answer, as the side stands (R151). -/
def laneVaried (tag : Byte) (d : Side) (s : State) : State :=
  answer tag (.laneVaried (s.side d).status (s.side d).requests.length) s

/-- VARY LANE (R151): 1 HOLD, 2 RELEASE. -/
def cmdVaryLane (tag : Byte) (side n : Nat) (s : State) : State :=
  match Side.ofCode side with
  | some d =>
    if s.fitted d then
      if n = 1 then laneVaried tag d (updSide d SideRec.hostHold s)
      else if n = 2 then laneVaried tag d (grantCredits d (updSide d SideRec.hostRelease s))
      else answer tag (.badField none) s
    else answer tag (.badField none) s
  | none => answer tag (.badField none) s

/-- AUDIT (R131). -/
def cmdAudit (tag : Byte) (first last : Nat) (s : State) : State :=
  if slotFits first && slotFits last && decide (first ≤ last) then
    if s.seq.audit.running then answer tag .auditBusy s
    else answer tag (.auditStarted first last) (updAudit (fun _ => ⟨true, first, last, first, 0, 0, 0, 0⟩) s)
  else answer tag (.badField none) s

/-- ARM RESUME, in FAULT (R118). -/
def cmdArmResume (tag : Byte) (s : State) : State :=
  if s.seq.arm = .fault then
    match s.seq.inArm with
    | some o =>
      if o.touchesCell && s.prm.doorOpen then answer tag .resumeBusy s
      else answer tag (.resumed (some o.number)) (resendArm o s)
    | none => answer tag (.resumed none) (leaveArm .idle s)
  else answer tag .stateRefused s

/-! ### Accounting commands (R191 to R193) -/

/-- DRAIN: the answer, then the m oldest spool records (R191). -/
def cmdDrain (tag : Byte) (k : Nat) (s : State) : State :=
  let m := min k (min s.held (s.reportRoom - 1))
  let moved := s.acct.spool.take m
  let s' := answer tag (.drained m (s.held - m)) { s with acct := { s.acct with spool := s.acct.spool.drop m } }
  let s' := moved.foldl (fun s r => pushReport (.accounting tag r) s) s'
  if m = 0 then s' else evalSpool s'

/-- ACCOUNT READ (R192). -/
def cmdAccountRead (tag : Byte) (n : Nat) (s : State) : State := answer tag (.account n (s.account n)) s

/-- An account with its five totals cleared; open mounts stay (R193). -/
def Account.cleared (a : Account) : Account := { Account.zero with openMounts := a.openMounts }

/-- Whether any of the five totals is not 0 or clear (R193). -/
def Account.hasTotals (a : Account) : Bool := a.cleared != a

/-- ACCOUNT CLEAR: 1 one account, 2 ALL (R193). -/
def cmdAccountClear (tag : Byte) (form n : Nat) (s : State) : State :=
  if form = 1 then answer tag (.accountCleared n (s.account n)) (updAccount n Account.cleared s)
  else if form = 2 then
    answer tag (.accountsCleared (s.acct.accounts.filter fun e => e.2.hasTotals).length)
      ((s.acct.accounts.map (·.1)).foldl (fun s n => updAccount n Account.cleared s) s)
  else answer tag (.badField none) s

/-! ### Taking a command (R196) -/

/-- Whether a payload has the length its command calls for (section 11.7); a code that is none of the twenty has none. -/
def formFits (code : Nat) (p : List Byte) : Bool :=
  match code with
  | 1 =>
    match p with
    | _ :: _ :: len :: value => value.length = len.toNat
    | _ => false
  | 2 | 3 | 4 | 5 | 17 => p.length = 0
  | 6 | 18 | 19 => p.length = 1
  | 7 => p.length = 11
  | 8 | 9 | 13 | 14 | 15 | 20 => p.length = 2
  | 10 => p.length = 10
  | 11 => p.length = 9
  | 12 => p.length = 6
  | 16 => p.length = 4
  | _ => false

/-- Whether a command is taken in a station state (section 11.2). -/
def takenIn (code : Nat) (st : StationState) : Bool :=
  match code, st with
  | 1, .config | 2, .config => true
  | 3, .running => true
  | 4, .quiesced => true
  | 5, _ | 6, _ | 8, _ | 9, _ | 12, _ | 18, _ | 19, _ | 20, _ => true
  | 7, .running | 7, .quiesced | 16, .running | 16, .quiesced => true
  | 10, .config | 10, .running | 11, .config | 11, .running | 13, .config | 13, .running => true
  | 14, .config | 14, .running | 14, .quiesced | 15, .config | 15, .running | 15, .quiesced => true
  | 17, .running | 17, .quiesced | 17, .conflict => true
  | _, _ => false

/-- A command's fields and conditions are checked and its action carried out (R196, step 3). -/
def runCommand (code : Nat) (tag : Byte) (p : List Byte) (s : State) : State :=
  match code, p with
  | 1, p => cmdConfigure tag p s
  | 2, _ => cmdStart tag s
  | 3, _ => cmdQuiesce tag s
  | 4, _ => cmdResume tag s
  | 6, [n] => cmdStatus tag n s
  | 7, p => cmdMount tag p s
  | 8, [a, b] => cmdCancel tag (idOf a b) s
  | 9, [a, b] => cmdDirRead tag (num16 a b) s
  | 10, p => cmdDirWrite tag p s
  | 11, p => cmdDirDelete tag p s
  | 12, [a, b, c, d, e, f] => cmdDirSearch tag (volserOf a b c d e f) s
  | 13, [a, b] => cmdDirClear tag a b s
  | 14, [a, b] => cmdVaryDrive tag a.toNat b.toNat s
  | 15, [a, b] => cmdVaryLane tag a.toNat b.toNat s
  | 16, [a, b, c, d] => cmdAudit tag (num16 a b) (num16 c d) s
  | 17, _ => cmdArmResume tag s
  | 18, [k] => cmdDrain tag k.toNat s
  | 19, [n] => cmdAccountRead tag n.toNat s
  | 20, [form, n] => cmdAccountClear tag form.toNat n.toNat s
  | _, _ => answer tag (.badField none) s

/-- A command is taken: form, station state, then its own checks and action (R196). -/
def takeCommand (r : CmdRec) (s : State) : State :=
  if formFits r.code.toNat r.payload then
    if takenIn r.code.toNat s.host.state then runCommand r.code.toNat r.tag r.payload s
    else answer r.tag .stateRefused s
  else answer r.tag (.badField none) s

/-! ### The report-place grant (R197) -/

/-- The requester of each place in the rotation waits: 1 the command taker, 2 to 8 the owners of notices. -/
def State.waits (s : State) (k : Nat) : Bool :=
  match k with
  | 1 => !s.host.commands.isEmpty
  | 2 => !s.neg.notices.isEmpty
  | 3 => !s.mnt.notices.isEmpty
  | 4 => !s.seq.notices.isEmpty
  | 5 => !s.lane.notices.isEmpty
  | 6 => !s.wear.notices.isEmpty
  | 7 => !s.acct.notices.isEmpty
  | 8 => !s.host.notices.isEmpty
  | _ => false

/-- The requesters in the order the pointer gives: those after it first. -/
def rotation (pointer : Nat) : List Nat :=
  ([1, 2, 3, 4, 5, 6, 7, 8].filter fun k => pointer < k) ++ [1, 2, 3, 4, 5, 6, 7, 8].filter fun k => k ≤ pointer

/-- The requester the next grant goes to: a place is free, and it is the first that waits after the pointer. -/
def State.grantee (s : State) : Option Nat :=
  if 0 < s.reportRoom then (rotation s.host.pointer).find? s.waits else none

/-- The record a MOUNT RESULT notice reports no longer waits for it (R49). -/
def noticeEntered (n : Notice) (s : State) : State :=
  match n with
  | .mountResult id _ _ _ => sweepOrigins (updOrigin id (fun o => { o with noticeWaits := false }) s)
  | _ => s

/-- The oldest waiting notice of an owner, and the state in which it no longer waits. -/
def State.takeNotice (s : State) (k : Nat) : Option (Notice × State) :=
  match k with
  | 2 => match s.neg.notices with
    | n :: t => some (n, { s with neg := { s.neg with notices := t } })
    | [] => none
  | 3 => match s.mnt.notices with
    | n :: t => some (n, { s with mnt := { s.mnt with notices := t } })
    | [] => none
  | 4 => match s.seq.notices with
    | n :: t => some (n, { s with seq := { s.seq with notices := t } })
    | [] => none
  | 5 => match s.lane.notices with
    | n :: t => some (n, { s with lane := { s.lane with notices := t } })
    | [] => none
  | 6 => match s.wear.notices with
    | n :: t => some (n, { s with wear := { s.wear with notices := t } })
    | [] => none
  | 7 => match s.acct.notices with
    | n :: t => some (n, { s with acct := { s.acct with notices := t } })
    | [] => none
  | 8 => match s.host.notices with
    | n :: t => some (n, { s with host := { s.host with notices := t } })
    | [] => none
  | _ => none

def setPointer (k : Nat) (s : State) : State := { s with host := { s.host with pointer := k } }

/-- The command at the head leaves the command FIFO and is taken whole (R196). -/
def takeFirstCommand (s : State) : State :=
  match s.host.commands with
  | r :: rest => takeCommand r { s with host := { s.host with commands := rest } }
  | [] => s

/-- The place is granted to a requester, and the pointer moves to it (R197). -/
def grantTo (k : Nat) (s : State) : State :=
  let s := setPointer k s
  if k = 1 then takeFirstCommand s
  else
    match s.takeNotice k with
    | some (n, s') => noticeEntered n (pushReport (.notice n) s')
    | none => s

/-- A RESET record of the right form (R204). -/
def CmdRec.isReset (r : CmdRec) : Bool := r.code = 5 && r.payload.isEmpty

/-- A RESET stands at the head of the command FIFO (R204). -/
def State.resetAtHead (s : State) : Bool := (s.host.commands.head?.map CmdRec.isReset).getD false

/-- The device reset of the RESET command (R204). -/
def resetPart (s : State) : State := State.resetWith s.pins s.pending

/-- One grant is made; a RESET at the head of the command FIFO needs no place and is taken first (R197, R204, assumption 38). -/
def grantPlace (s : State) : State :=
  if s.resetAtHead then resetPart s
  else
    match s.grantee with
    | some k => grantTo k s
    | none => s

/-- A host command as one row of the table: its record is written, unless it stands at the head of the command FIFO already, and
if it then stands there and the grant is the command taker's, it is taken (assumption 3). -/
def hostCommand (code : Nat) (tag : Byte) (payload : List Byte) (s : State) : State :=
  let r : CmdRec := ⟨BitVec.ofNat 8 code, tag, payload⟩
  let s := if s.host.commands.head? = some r then s else writeCommand r s
  if s.host.commands.head? = some r ∧ (s.resetAtHead = true ∨ s.grantee = some 1) then grantPlace s else s

end Sys2Proof.Machine
end

