-- ==== Sys2Proof/Machine/Settle.lean ====
section
/-! DEFINITION. What every event ends with: the arm is given the order it can take (R116, R120), and the display shows the
prompt it must show (R157, R158). An event taken while the reset pin is held changes nothing (R204). -/

namespace Sys2Proof.Machine

/-- The display after an event: the shown prompt stays while it is displayable and the display is browsing, and otherwise is
the head of the display order (R157). A change from one prompt to another that no key made sets the unconfirmed mark (R158). -/
def refreshDisplay (byKey : Bool) (s : State) : State :=
  let kept := s.prm.browsing && s.displayOrder.any fun p => s.prm.shown = some p.number
  let next := if kept then s.prm.shown else s.displayHead
  match next with
  | none => { s with prm := { s.prm with shown := none, browsing := false, unconfirmed := false } }
  | some n =>
    { s with prm := { s.prm with
        shown := some n
        browsing := kept
        unconfirmed := s.prm.unconfirmed || (!byKey && s.prm.shown.isSome && s.prm.shown != some n) } }

/-- The arm's next issue and the display, at the end of an event. -/
def settle (byKey : Bool) (s : State) : State := refreshDisplay byKey (selectArm s)

/-- An event of the part. While the reset pin is held the part keeps its reset state and takes nothing (R204). -/
def runEvent (f : State → State) (s : State) : Host.Outcome State Fault Refusal :=
  .next (if s.pins.resetHeld then s else settle false (f s))

/-- An event that a key makes: no change it makes to the display sets the unconfirmed mark (R158). -/
def runKey (f : State → State) (s : State) : Host.Outcome State Fault Refusal :=
  .next (if s.pins.resetHeld then s else settle true (f s))

end Sys2Proof.Machine
end

