-- ==== Sys2Proof/Machine/HostEvents.lean ====
section
/-! DEFINITION. The meanings of the host port's rows and of device reset: one definition per row. -/

namespace Sys2Proof.Machine

/-- COMMAND WRITE (R195). -/
def execCommandWrite (r : CmdRec) (s : State) : Host.Outcome State Fault Refusal :=
  runEvent (writeCommand r) s

/-- REPORT READ (R195). -/
def execReportRead (s : State) : Host.Outcome State Fault Refusal :=
  runEvent readReport s

/-- REPORT PLACE GRANT (R196, R197). -/
def execReportPlaceGrant (s : State) : Host.Outcome State Fault Refusal :=
  runEvent grantPlace s

/-- The host command CONFIGURE (R198, R199), code 1, as one row (assumption 3). -/
def execConfigure (tag : Byte) (payload : List Byte) (s : State) : Host.Outcome State Fault Refusal :=
  runEvent (hostCommand 1 tag payload) s

/-- The host command START (R200), code 2, as one row (assumption 3). -/
def execStart (tag : Byte) (payload : List Byte) (s : State) : Host.Outcome State Fault Refusal :=
  runEvent (hostCommand 2 tag payload) s

/-- The host command QUIESCE (R201), code 3, as one row (assumption 3). -/
def execQuiesce (tag : Byte) (payload : List Byte) (s : State) : Host.Outcome State Fault Refusal :=
  runEvent (hostCommand 3 tag payload) s

/-- The host command RESUME (R201), code 4, as one row (assumption 3). -/
def execResume (tag : Byte) (payload : List Byte) (s : State) : Host.Outcome State Fault Refusal :=
  runEvent (hostCommand 4 tag payload) s

/-- The host command RESET (R204), code 5, as one row (assumption 3). -/
def execReset (tag : Byte) (payload : List Byte) (s : State) : Host.Outcome State Fault Refusal :=
  runEvent (hostCommand 5 tag payload) s

/-- The host command STATUS (R202), code 6, as one row (assumption 3). -/
def execStatus (tag : Byte) (payload : List Byte) (s : State) : Host.Outcome State Fault Refusal :=
  runEvent (hostCommand 6 tag payload) s

/-- The host command MOUNT (R48, R50), code 7, as one row (assumption 3). -/
def execMount (tag : Byte) (payload : List Byte) (s : State) : Host.Outcome State Fault Refusal :=
  runEvent (hostCommand 7 tag payload) s

/-- The host command CANCEL (R69), code 8, as one row (assumption 3). -/
def execCancel (tag : Byte) (payload : List Byte) (s : State) : Host.Outcome State Fault Refusal :=
  runEvent (hostCommand 8 tag payload) s

/-- The host command DIR READ (R20), code 9, as one row (assumption 3). -/
def execDirRead (tag : Byte) (payload : List Byte) (s : State) : Host.Outcome State Fault Refusal :=
  runEvent (hostCommand 9 tag payload) s

/-- The host command DIR WRITE (R21), code 10, as one row (assumption 3). -/
def execDirWrite (tag : Byte) (payload : List Byte) (s : State) : Host.Outcome State Fault Refusal :=
  runEvent (hostCommand 10 tag payload) s

/-- The host command DIR DELETE (R22), code 11, as one row (assumption 3). -/
def execDirDelete (tag : Byte) (payload : List Byte) (s : State) : Host.Outcome State Fault Refusal :=
  runEvent (hostCommand 11 tag payload) s

/-- The host command DIR SEARCH (R20), code 12, as one row (assumption 3). -/
def execDirSearch (tag : Byte) (payload : List Byte) (s : State) : Host.Outcome State Fault Refusal :=
  runEvent (hostCommand 12 tag payload) s

/-- The host command DIR CLEAR (R23), code 13, as one row (assumption 3). -/
def execDirClear (tag : Byte) (payload : List Byte) (s : State) : Host.Outcome State Fault Refusal :=
  runEvent (hostCommand 13 tag payload) s

/-- The host command VARY DRIVE (R94), code 14, as one row (assumption 3). -/
def execVaryDrive (tag : Byte) (payload : List Byte) (s : State) : Host.Outcome State Fault Refusal :=
  runEvent (hostCommand 14 tag payload) s

/-- The host command VARY LANE (R151), code 15, as one row (assumption 3). -/
def execVaryLane (tag : Byte) (payload : List Byte) (s : State) : Host.Outcome State Fault Refusal :=
  runEvent (hostCommand 15 tag payload) s

/-- The host command AUDIT (R131), code 16, as one row (assumption 3). -/
def execAudit (tag : Byte) (payload : List Byte) (s : State) : Host.Outcome State Fault Refusal :=
  runEvent (hostCommand 16 tag payload) s

/-- The host command ARM RESUME (R118), code 17, as one row (assumption 3). -/
def execArmResume (tag : Byte) (payload : List Byte) (s : State) : Host.Outcome State Fault Refusal :=
  runEvent (hostCommand 17 tag payload) s

/-- The host command DRAIN (R191), code 18, as one row (assumption 3). -/
def execDrain (tag : Byte) (payload : List Byte) (s : State) : Host.Outcome State Fault Refusal :=
  runEvent (hostCommand 18 tag payload) s

/-- The host command ACCOUNT READ (R192), code 19, as one row (assumption 3). -/
def execAccountRead (tag : Byte) (payload : List Byte) (s : State) : Host.Outcome State Fault Refusal :=
  runEvent (hostCommand 19 tag payload) s

/-- The host command ACCOUNT CLEAR (R193), code 20, as one row (assumption 3). -/
def execAccountClear (tag : Byte) (payload : List Byte) (s : State) : Host.Outcome State Fault Refusal :=
  runEvent (hostCommand 20 tag payload) s

/-- Device reset from the reset pin: the whole part takes its reset state, with the levels the pins carry (R203, R204). -/
def execDeviceReset (straps : StrapPins) (held : Bool) (s : State) : Host.Outcome State Fault Refusal :=
  .next (State.resetWith ⟨straps, s.pins.doorOpen, held⟩ s.pending)

/-- The reset pin is released, and the part takes events again (R204). -/
def execResetPinRelease (s : State) : Host.Outcome State Fault Refusal :=
  .next { s with pins := { s.pins with resetHeld := false } }

end Sys2Proof.Machine
end

