-- ==== Sys2Proof/Machine/LineEvents.lean ====
section
/-! DEFINITION. The meanings of the library line's rows and of the clock tick: one definition per row. -/

namespace Sys2Proof.Machine

/-- STATION CLOCK TICK (R14, R38, R40, R200). -/
def execStationClockTick (s : State) : Host.Outcome State Fault Refusal :=
  runEvent clockTick s

/-- FRAME CHECK FAIL: bytes heard whose tests R25 and R26 make. -/
def execFrameCheckFail (bytes : List Byte) (s : State) : Host.Outcome State Fault Refusal :=
  runEvent (hearBytes bytes) s

/-- OWN ADDRESS HELLO (R27, R43). -/
def execOwnAddressHello (f : RawFrame) (s : State) : Host.Outcome State Fault Refusal :=
  runEvent (hear .hello f) s

/-- HELLO RECEIVED (R39, R41, R42). -/
def execHelloReceived (f : RawFrame) (s : State) : Host.Outcome State Fault Refusal :=
  runEvent (hear .hello f) s

/-- LOCATE RECEIVED (R12). -/
def execLocateReceived (f : RawFrame) (s : State) : Host.Outcome State Fault Refusal :=
  runEvent (hear .locate f) s

/-- HOLDING RECEIVED (R15, R52). -/
def execHoldingReceived (f : RawFrame) (s : State) : Host.Outcome State Fault Refusal :=
  runEvent (hear .holding f) s

/-- OFFER RECEIVED (R54). -/
def execOfferReceived (f : RawFrame) (s : State) : Host.Outcome State Fault Refusal :=
  runEvent (hear .offer f) s

/-- BID RECEIVED (R56). -/
def execBidReceived (f : RawFrame) (s : State) : Host.Outcome State Fault Refusal :=
  runEvent (hear .bid f) s

/-- AWARD RECEIVED (R58). -/
def execAwardReceived (f : RawFrame) (s : State) : Host.Outcome State Fault Refusal :=
  runEvent (hear .award f) s

/-- ACCEPT RECEIVED (R59). -/
def execAcceptReceived (f : RawFrame) (s : State) : Host.Outcome State Fault Refusal :=
  runEvent (hear .accept f) s

/-- DECLINE RECEIVED (R60). -/
def execDeclineReceived (f : RawFrame) (s : State) : Host.Outcome State Fault Refusal :=
  runEvent (hear .decline f) s

/-- REVOKE RECEIVED (R62). -/
def execRevokeReceived (f : RawFrame) (s : State) : Host.Outcome State Fault Refusal :=
  runEvent (hear .revoke f) s

/-- CANCEL FRAME RECEIVED (R70). -/
def execCancelFrameReceived (f : RawFrame) (s : State) : Host.Outcome State Fault Refusal :=
  runEvent (hear .cancel f) s

/-- PROGRESS RECEIVED (R64, R67). -/
def execProgressReceived (f : RawFrame) (s : State) : Host.Outcome State Fault Refusal :=
  runEvent (hear .progress f) s

/-- RESULT RECEIVED (R65, R66, R71). -/
def execResultReceived (f : RawFrame) (s : State) : Host.Outcome State Fault Refusal :=
  runEvent (hear .result f) s

/-- FETCH RECEIVED (R72). -/
def execFetchReceived (f : RawFrame) (s : State) : Host.Outcome State Fault Refusal :=
  runEvent (hear .fetch f) s

/-- NOT HERE RECEIVED (R17, R73). -/
def execNotHereReceived (f : RawFrame) (s : State) : Host.Outcome State Fault Refusal :=
  runEvent (hear .notHere f) s

/-- DEPOSIT RECEIVED (R143, R144). -/
def execDepositReceived (f : RawFrame) (s : State) : Host.Outcome State Fault Refusal :=
  runEvent (hear .deposit f) s

/-- CREDIT RECEIVED (R141). -/
def execCreditReceived (f : RawFrame) (s : State) : Host.Outcome State Fault Refusal :=
  runEvent (hear .credit f) s

/-- PROMPT NOTICE RECEIVED (R169). -/
def execPromptNoticeReceived (f : RawFrame) (s : State) : Host.Outcome State Fault Refusal :=
  runEvent (hear .promptNotice f) s

/-- PROMPT CLEARED RECEIVED (R169). -/
def execPromptClearedReceived (f : RawFrame) (s : State) : Host.Outcome State Fault Refusal :=
  runEvent (hear .promptCleared f) s

/-- ACK RECEIVED (R31). -/
def execAckReceived (f : RawFrame) (s : State) : Host.Outcome State Fault Refusal :=
  runEvent (hear .ack f) s

/-- TRANSMIT ATTEMPT START (R30, R33, R38). -/
def execTransmitAttemptStart (s : State) : Host.Outcome State Fault Refusal :=
  runEvent attemptStart s

/-- ECHO MISMATCH (R30, R34). -/
def execEchoMismatch (s : State) : Host.Outcome State Fault Refusal :=
  runEvent attemptCollided s

/-- ATTEMPT SUCCESS (R30). -/
def execAttemptSuccess (s : State) : Host.Outcome State Fault Refusal :=
  runEvent attemptDone s

/-- ACK WAIT EXPIRY (R31, R34). -/
def execAckWaitExpiry (s : State) : Host.Outcome State Fault Refusal :=
  runEvent ackWaitEnded s

/-- TX WAITING FRAME ENTERS (R35, R36). -/
def execTxWaitingFrameEnters (s : State) : Host.Outcome State Fault Refusal :=
  runEvent takeWaitingFrame s

/-- PRESENCE INTERVAL EXPIRY (R38). -/
def execPresenceIntervalExpiry (s : State) : Host.Outcome State Fault Refusal :=
  runEvent presenceExpired s

/-- SILENCE TIMER EXPIRY (R40). -/
def execSilenceTimerExpiry (peer : Nat) (s : State) : Host.Outcome State Fault Refusal :=
  runEvent (silenceExpired peer) s

/-- LEARNT LIFETIME EXPIRY (R14). -/
def execLearntLifetimeExpiry (position : Nat) (s : State) : Host.Outcome State Fault Refusal :=
  runEvent (learntExpired position) s

end Sys2Proof.Machine
end

