-- ==== Sys2Proof/Machine/WorkEvents.lean ====
section
/-! DEFINITION. The meanings of the rows of requests, arm, drive link, console and wear: one definition per row. -/

namespace Sys2Proof.Machine

/-- LOCATE WINDOW EXPIRY (R51). -/
def execLocateWindowExpiry (id : ReqId) (s : State) : Host.Outcome State Fault Refusal :=
  runEvent (locateExpired id) s

/-- BID WINDOW EXPIRY (R57). -/
def execBidWindowExpiry (id : ReqId) (s : State) : Host.Outcome State Fault Refusal :=
  runEvent (bidWindowExpired id) s

/-- AWARD ANSWER EXPIRY (R60). -/
def execAwardAnswerExpiry (id : ReqId) (s : State) : Host.Outcome State Fault Refusal :=
  runEvent (awardAnswerExpired id) s

/-- BID RECORD EXPIRY (R55). -/
def execBidRecordExpiry (id : ReqId) (s : State) : Host.Outcome State Fault Refusal :=
  runEvent (bidExpired id) s

/-- MOUNT WATCH EXPIRY (R64). -/
def execMountWatchExpiry (id : ReqId) (s : State) : Host.Outcome State Fault Refusal :=
  runEvent (mountWatchExpired id) s

/-- SOURCING LOCAL (R97). -/
def execSourcingLocal (id : ReqId) (s : State) : Host.Outcome State Fault Refusal :=
  runEvent (sourceWaiting id) s

/-- ORDER OFFER TAKEN (R114). -/
def execOrderOfferTaken (s : State) : Host.Outcome State Fault Refusal :=
  runEvent takeWaitingOffer s

/-- ARM COMPLETION (R116 to R126). -/
def execArmCompletion (number : Nat) (result : ArmResult) (symbols : Option (List Nat)) (s : State) :
    Host.Outcome State Fault Refusal :=
  runEvent (onCompletion number result symbols) s

/-- AUDIT CURSOR STEP (R131). -/
def execAuditCursorStep (s : State) : Host.Outcome State Fault Refusal :=
  runEvent auditStep s

/-- READY (R91, R103). -/
def execReady (drive : Nat) (s : State) : Host.Outcome State Fault Refusal :=
  runEvent (onReady drive) s

/-- LOAD FAILED (R91, R103). -/
def execLoadFailed (drive : Nat) (s : State) : Host.Outcome State Fault Refusal :=
  runEvent (onLoadFailed drive) s

/-- UNLOADED (R91, R92, R103). -/
def execUnloaded (drive : Nat) (counts : Counts) (s : State) : Host.Outcome State Fault Refusal :=
  runEvent (onUnloaded drive counts) s

/-- OFFLINE (R92, R104). -/
def execOffline (drive : Nat) (s : State) : Host.Outcome State Fault Refusal :=
  runEvent (onOffline drive) s

/-- ONLINE (R92). -/
def execOnline (drive : Nat) (s : State) : Host.Outcome State Fault Refusal :=
  runEvent (onOnline drive) s

/-- LOAD WAIT EXPIRY (R103). -/
def execLoadWaitExpiry (id : ReqId) (s : State) : Host.Outcome State Fault Refusal :=
  runEvent (loadWaitExpired id) s

/-- ARRIVAL LIMIT EXPIRY (R98). -/
def execArrivalLimitExpiry (id : ReqId) (s : State) : Host.Outcome State Fault Refusal :=
  runEvent (arrivalExpired id) s

/-- DONE KEY (R158, R160). -/
def execDoneKey (s : State) : Host.Outcome State Fault Refusal :=
  runKey keyDone s

/-- CANNOT KEY (R158, R160). -/
def execCannotKey (s : State) : Host.Outcome State Fault Refusal :=
  runKey keyCannot s

/-- NEXT KEY (R157, R158). -/
def execNextKey (s : State) : Host.Outcome State Fault Refusal :=
  runKey keyNext s

/-- DOOR SWITCH: recorded even while the reset pin is held (R161, R204). -/
def execDoorSwitch (isOpen : Bool) (s : State) : Host.Outcome State Fault Refusal :=
  .next (settle false (doorMoved isOpen s))

/-- PROMPT POSTING ENTERS (R156). -/
def execPromptPostingEnters (s : State) : Host.Outcome State Fault Refusal :=
  runEvent takePosting s

/-- PROMPT REMINDER (R167). -/
def execPromptReminder (number : Nat) (s : State) : Host.Outcome State Fault Refusal :=
  runEvent (reminded number) s

/-- PROMPT ESCALATION (R167, R168). -/
def execPromptEscalation (number : Nat) (s : State) : Host.Outcome State Fault Refusal :=
  runEvent (escalated number) s

/-- FETCH EXPIRY (R162). -/
def execFetchExpiry (number : Nat) (s : State) : Host.Outcome State Fault Refusal :=
  runEvent (fetchExpired number) s

/-- RING EXPIRY (R163). -/
def execRingExpiry (number : Nat) (s : State) : Host.Outcome State Fault Refusal :=
  runEvent (ringExpired number) s

/-- WEAR HANDOVER (R172 to R176). -/
def execWearHandover (s : State) : Host.Outcome State Fault Refusal :=
  runEvent wearStep s

end Sys2Proof.Machine
end

