-- ==== Sys2Proof/Machine/Dispatch.lean ====
section
/-! DEFINITION. One arm per command: its meaning. -/

namespace Sys2Proof.Machine

/-- What a command does to everything but the queue of waiting commands. -/
def exec (i : Instr) (s : State) : Host.Outcome State Fault Refusal :=
  match i with
  | .commandWrite r => Sys2Proof.Machine.execCommandWrite r s
  | .reportRead => Sys2Proof.Machine.execReportRead s
  | .reportPlaceGrant => Sys2Proof.Machine.execReportPlaceGrant s
  | .configure tag payload => Sys2Proof.Machine.execConfigure tag payload s
  | .start tag payload => Sys2Proof.Machine.execStart tag payload s
  | .quiesce tag payload => Sys2Proof.Machine.execQuiesce tag payload s
  | .resume tag payload => Sys2Proof.Machine.execResume tag payload s
  | .reset tag payload => Sys2Proof.Machine.execReset tag payload s
  | .deviceReset straps held => Sys2Proof.Machine.execDeviceReset straps held s
  | .status tag payload => Sys2Proof.Machine.execStatus tag payload s
  | .mount tag payload => Sys2Proof.Machine.execMount tag payload s
  | .cancel tag payload => Sys2Proof.Machine.execCancel tag payload s
  | .dirRead tag payload => Sys2Proof.Machine.execDirRead tag payload s
  | .dirWrite tag payload => Sys2Proof.Machine.execDirWrite tag payload s
  | .dirDelete tag payload => Sys2Proof.Machine.execDirDelete tag payload s
  | .dirSearch tag payload => Sys2Proof.Machine.execDirSearch tag payload s
  | .dirClear tag payload => Sys2Proof.Machine.execDirClear tag payload s
  | .varyDrive tag payload => Sys2Proof.Machine.execVaryDrive tag payload s
  | .varyLane tag payload => Sys2Proof.Machine.execVaryLane tag payload s
  | .audit tag payload => Sys2Proof.Machine.execAudit tag payload s
  | .armResume tag payload => Sys2Proof.Machine.execArmResume tag payload s
  | .drain tag payload => Sys2Proof.Machine.execDrain tag payload s
  | .accountRead tag payload => Sys2Proof.Machine.execAccountRead tag payload s
  | .accountClear tag payload => Sys2Proof.Machine.execAccountClear tag payload s
  | .stationClockTick => Sys2Proof.Machine.execStationClockTick s
  | .frameCheckFail bytes => Sys2Proof.Machine.execFrameCheckFail bytes s
  | .ownAddressHello f => Sys2Proof.Machine.execOwnAddressHello f s
  | .helloReceived f => Sys2Proof.Machine.execHelloReceived f s
  | .locateReceived f => Sys2Proof.Machine.execLocateReceived f s
  | .holdingReceived f => Sys2Proof.Machine.execHoldingReceived f s
  | .offerReceived f => Sys2Proof.Machine.execOfferReceived f s
  | .bidReceived f => Sys2Proof.Machine.execBidReceived f s
  | .awardReceived f => Sys2Proof.Machine.execAwardReceived f s
  | .acceptReceived f => Sys2Proof.Machine.execAcceptReceived f s
  | .declineReceived f => Sys2Proof.Machine.execDeclineReceived f s
  | .revokeReceived f => Sys2Proof.Machine.execRevokeReceived f s
  | .cancelFrameReceived f => Sys2Proof.Machine.execCancelFrameReceived f s
  | .progressReceived f => Sys2Proof.Machine.execProgressReceived f s
  | .resultReceived f => Sys2Proof.Machine.execResultReceived f s
  | .fetchReceived f => Sys2Proof.Machine.execFetchReceived f s
  | .notHereReceived f => Sys2Proof.Machine.execNotHereReceived f s
  | .depositReceived f => Sys2Proof.Machine.execDepositReceived f s
  | .creditReceived f => Sys2Proof.Machine.execCreditReceived f s
  | .promptNoticeReceived f => Sys2Proof.Machine.execPromptNoticeReceived f s
  | .promptClearedReceived f => Sys2Proof.Machine.execPromptClearedReceived f s
  | .ackReceived f => Sys2Proof.Machine.execAckReceived f s
  | .transmitAttemptStart => Sys2Proof.Machine.execTransmitAttemptStart s
  | .echoMismatch => Sys2Proof.Machine.execEchoMismatch s
  | .attemptSuccess => Sys2Proof.Machine.execAttemptSuccess s
  | .ackWaitExpiry => Sys2Proof.Machine.execAckWaitExpiry s
  | .txWaitingFrameEnters => Sys2Proof.Machine.execTxWaitingFrameEnters s
  | .presenceIntervalExpiry => Sys2Proof.Machine.execPresenceIntervalExpiry s
  | .silenceTimerExpiry peer => Sys2Proof.Machine.execSilenceTimerExpiry peer s
  | .learntLifetimeExpiry position => Sys2Proof.Machine.execLearntLifetimeExpiry position s
  | .locateWindowExpiry id => Sys2Proof.Machine.execLocateWindowExpiry id s
  | .bidWindowExpiry id => Sys2Proof.Machine.execBidWindowExpiry id s
  | .awardAnswerExpiry id => Sys2Proof.Machine.execAwardAnswerExpiry id s
  | .bidRecordExpiry id => Sys2Proof.Machine.execBidRecordExpiry id s
  | .mountWatchExpiry id => Sys2Proof.Machine.execMountWatchExpiry id s
  | .sourcingLocal id => Sys2Proof.Machine.execSourcingLocal id s
  | .orderOfferTaken => Sys2Proof.Machine.execOrderOfferTaken s
  | .armCompletion number result symbols => Sys2Proof.Machine.execArmCompletion number result symbols s
  | .auditCursorStep => Sys2Proof.Machine.execAuditCursorStep s
  | .ready drive => Sys2Proof.Machine.execReady drive s
  | .loadFailed drive => Sys2Proof.Machine.execLoadFailed drive s
  | .unloaded drive counts => Sys2Proof.Machine.execUnloaded drive counts s
  | .offline drive => Sys2Proof.Machine.execOffline drive s
  | .online drive => Sys2Proof.Machine.execOnline drive s
  | .loadWaitExpiry id => Sys2Proof.Machine.execLoadWaitExpiry id s
  | .arrivalLimitExpiry id => Sys2Proof.Machine.execArrivalLimitExpiry id s
  | .doneKey => Sys2Proof.Machine.execDoneKey s
  | .cannotKey => Sys2Proof.Machine.execCannotKey s
  | .nextKey => Sys2Proof.Machine.execNextKey s
  | .doorSwitch isOpen => Sys2Proof.Machine.execDoorSwitch isOpen s
  | .promptPostingEnters => Sys2Proof.Machine.execPromptPostingEnters s
  | .promptReminder number => Sys2Proof.Machine.execPromptReminder number s
  | .promptEscalation number => Sys2Proof.Machine.execPromptEscalation number s
  | .fetchExpiry number => Sys2Proof.Machine.execFetchExpiry number s
  | .ringExpiry number => Sys2Proof.Machine.execRingExpiry number s
  | .wearHandover => Sys2Proof.Machine.execWearHandover s
  | .resetPinRelease => Sys2Proof.Machine.execResetPinRelease s

end Sys2Proof.Machine
end

