-- ==== Sys2Proof/Safety.lean ====
section
/-! DEFINITION. What holds of the part between two commands, and the premises that statements share: a host port ready for one
command, a frame the station hears, a line with room. -/

namespace Sys2Proof.Machine

/-! ### Invariants -/

/-- The arm has been given what it can take: an IDLE arm has no eligible order queued, and a HOLDING arm has in hand a place that is
not eligible (R116, R120). -/
def State.armSettled (s : State) : Bool :=
  match s.seq.arm with
  | .idle => s.choice.isNone
  | .holding =>
    match s.seq.inArm with
    | some o => !s.eligible o
    | none => true
  | .busy | .fault => true

/-- The console shows what it must: the head of the display order while it is not browsing, a displayable prompt while it is, and
nothing, with both marks clear, when no prompt is displayable (R157). -/
def State.displaySettled (s : State) : Bool :=
  match s.prm.shown with
  | none => s.displayOrder.isEmpty && !s.prm.browsing && !s.prm.unconfirmed
  | some n =>
    if s.prm.browsing then s.displayOrder.any fun p => p.number = n
    else s.displayHead = some n

/-- Nothing is left for the arm or the display to do. -/
def State.settled (s : State) : Bool := s.armSettled && s.displaySettled

/-- The host port's FIFOs hold no more than their places, and the rotation pointer names a requester or none (R195, R197). -/
def State.fifosFit (s : State) : Bool :=
  s.host.commands.length ≤ Config.commandPlaces && s.host.reports.length ≤ Config.reportPlaces && s.host.pointer ≤ 8

/-- An origin record's bid list holds no more than its 16 entries, one for each station (R47, R56). -/
def OriginRec.bidsFit (o : OriginRec) : Bool :=
  decide (o.bids.map (·.station)).Nodup && o.bids.all fun b => b.station ≤ 15

/-- These tables and queues hold no more than their places: the transmit queue (R35), the order queue (R114), the origin, bid and mount
tables (R47, R54, R95), the learnt table (R14), each bid list (R47), the FETCH and UNSERVED prompts (R156), the remote prompts (R169),
and each lane's lists (R135); and this station's address is one of 0 to 15 (R203). -/
def State.placesFit (s : State) : Bool :=
  s.line.queue.length ≤ Config.transmitPlaces && s.seq.queue.length ≤ Config.orderPlaces
    && s.neg.origins.length ≤ Config.originPlaces && s.neg.bids.length ≤ Config.bidPlaces
    && s.mnt.mounts.length ≤ Config.mountPlaces && s.openPrompts ≤ Config.openPromptPlaces
    && s.prm.remote.length ≤ Config.remotePlaces
    && s.lane.west.inbound.length ≤ Config.lanePlaces && s.lane.east.inbound.length ≤ Config.lanePlaces
    && s.lane.west.undelivered.length ≤ Config.lanePlaces && s.lane.east.undelivered.length ≤ Config.lanePlaces
    && s.dir.learnt.all (fun e => e.1 < Config.learntPositions) && s.neg.origins.all OriginRec.bidsFit && s.addr ≤ 15

/-- Spool records held and live mount records together never pass the level that stops accepts, so the spool of 512 never overflows
(R58, R188). -/
def State.spoolLaw (s : State) : Bool := s.held + s.live ≤ Config.withdrawLevel

/-- Every keyed table keeps its form, keys strictly rising, so that equal tables are equal data. -/
def State.tablesOrdered (s : State) : Bool :=
  tableWf s.dir.catalog && tableWf s.dir.learnt && tableWf s.line.dedupe && tableWf s.line.peers && tableWf s.acct.accounts
    && tableWf s.wear.records

/-- A volser stands in at most one entry of the home catalogue and one of the learnt table, and never in both (R4). -/
def State.volsersOnce (s : State) : Bool :=
  decide ((s.dir.catalog.map (·.2.volser)) ++ (s.dir.learnt.map (·.2.volser))).Nodup

/-- A drive that names a mount id is held by the live record with that id, a record that holds a drive is named by it, and a FREE
drive names none; no two live records have one id (R90, R95). -/
def State.drivesHeld (s : State) : Prop :=
  (s.mnt.mounts.map (·.id)).Nodup
    ∧ (∀ d r id, s.drive d = some r → r.mountId = some id →
      r.state ≠ .free ∧ ∃ m, s.mount id = some m ∧ m.drive = d ∧ m.driveHeld = true)
    ∧ ∀ m ∈ s.mnt.mounts, m.driveHeld = true → ∃ r, s.drive m.drive = some r ∧ r.mountId = some m.id

/-- The open mounts of every account are its live mount records (R184). -/
def State.openMountsCount (s : State) : Prop :=
  ∀ n, (s.account n).openMounts = (s.mnt.mounts.filter fun m => m.account = n).length

/-- The drives, the mount table and the accounts agree (R90, R95, R184). -/
def State.mountsAgree (s : State) : Prop := s.drivesHeld ∧ s.openMountsCount

/-- A side's credit: available and reserved credit together stay within the agreed capacity, and that within what the side
advertises; available credit is 0 in AGREEING, and a side that is not fitted has no agreed capacity, nor has any in CONFIG (R139,
R152). -/
def State.creditFits (s : State) (d : Side) : Bool :=
  let r := s.side d
  decide (r.available + r.reserved ≤ r.agreed) && decide (r.agreed ≤ s.advertised d)
    && (r.outbound != .agreeing || r.available == 0) && (r.outbound != .notFitted || r.agreed == 0)
    && (s.host.state != .config || r.agreed == 0)

/-- Those who hold a side's credit or ask for it are orders of the sequencer bound for its mouth, each once (R139). -/
def State.creditHeld (s : State) (d : Side) : Bool :=
  let l := (s.side d).holders ++ (s.side d).requests
  decide l.Nodup && l.all fun n => s.orders.any fun o => o.number = n && o.dst = .mouth d

/-- The credit law of both lanes, with what it rests on: the sequencer's orders have distinct numbers (R114), and an IDLE arm has none in
hand (R116). -/
def State.creditLaw (s : State) : Bool :=
  decide s.orderNumbers.Nodup && (s.seq.arm != .idle || s.seq.inArm.isNone)
    && s.creditFits .west && s.creditFits .east && s.creditHeld .west && s.creditHeld .east

/-- A state that a run can meet, as far as the invariants above say it. -/
def State.safe (s : State) : Bool := s.settled && s.fifosFit && s.placesFit && s.spoolLaw && s.tablesOrdered

/-! ### The host port -/

/-- No notice waits for a report place. -/
def State.quietNotices (s : State) : Bool :=
  s.neg.notices.isEmpty && s.mnt.notices.isEmpty && s.seq.notices.isEmpty && s.lane.notices.isEmpty && s.wear.notices.isEmpty
    && s.acct.notices.isEmpty && s.host.notices.isEmpty

/-- A command written now is taken at once: the reset pin is released, the command FIFO is empty, a report place is free and no notice
waits for it (R195, R197). -/
def State.ready (s : State) : Bool :=
  !s.pins.resetHeld && s.host.commands.isEmpty && decide (s.host.reports.length < Config.reportPlaces) && s.quietNotices

/-- The state in which a command that was written and granted at once is taken: it has left the command FIFO, the port has shown it
TAKEN, and the pointer stands at the command taker (R195, R197). -/
def State.opened (s : State) : State := { s with host := { s.host with lastWrite := .taken, pointer := 1 } }

/-- The state with a command's answer at the tail of the report FIFO. -/
def State.answered (tag : Byte) (a : Answer) (s : State) : State :=
  { s with host := { s.host with reports := s.host.reports ++ [.answer tag a] } }

/-- The command code, tag and payload of a host command row (section 11.7). -/
def hostRow : Instr → Option (Nat × Byte × List Byte)
  | .configure t p => some (1, t, p)
  | .start t p => some (2, t, p)
  | .quiesce t p => some (3, t, p)
  | .resume t p => some (4, t, p)
  | .reset t p => some (5, t, p)
  | .status t p => some (6, t, p)
  | .mount t p => some (7, t, p)
  | .cancel t p => some (8, t, p)
  | .dirRead t p => some (9, t, p)
  | .dirWrite t p => some (10, t, p)
  | .dirDelete t p => some (11, t, p)
  | .dirSearch t p => some (12, t, p)
  | .dirClear t p => some (13, t, p)
  | .varyDrive t p => some (14, t, p)
  | .varyLane t p => some (15, t, p)
  | .audit t p => some (16, t, p)
  | .armResume t p => some (17, t, p)
  | .drain t p => some (18, t, p)
  | .accountRead t p => some (19, t, p)
  | .accountClear t p => some (20, t, p)
  | _ => none

/-! ### The line -/

/-- The transmit queue takes an offered frame at once: the station is not in CONFLICT, a place is free and no frame waits for one (R35,
R43). -/
def State.lineRoom (s : State) : Bool := s.host.state != .conflict && s.txRoom

/-- A frame at the tail of the transmit queue. -/
def State.queueing (dst : Option Nat) (b : Body) (s : State) : State :=
  { s with line := { s.line with queue := s.line.queue ++ [⟨dst, b, false, 0, false⟩] } }

/-- A frame of a kind is heard from a peer that is not DOWN, by a station on the line that is not sending, and passes the tests (R25 to
R28). -/
def State.hears (s : State) (k : FrameKind) (f : RawFrame) : Bool :=
  !s.pins.resetHeld && s.line.phase != .sending && framePasses k f && f.src.toNat != s.addr && s.onLine
    && (s.peer f.src.toNat).presence != .down

/-- The peer a frame came from is UP and its silence timer starts again (R39). -/
def State.touched (s : State) (src : Nat) : State :=
  setPeer src { s.peer src with presence := .up, silence := s.silenceLimit } s

/-- A heard frame is addressed to this station and is no duplicate (R32). -/
def State.addressed (s : State) (f : RawFrame) : Bool :=
  f.dst.toNat == s.addr && tableGet s.line.dedupe f.src.toNat != some f.seq.toNat

/-- A frame accepted from a peer: the peer is UP, the dedupe entry holds its sequence, and an ACK has been sent (R32, R39). -/
def State.acked (s : State) (f : RawFrame) : State :=
  let t := s.touched f.src.toNat
  { t with line := { t.line with
      dedupe := tablePut t.line.dedupe f.src.toNat f.seq.toNat
      sent := t.line.sent ++ [frameBytes (some f.src.toNat) s.addr f.seq.toNat .ack] } }

/-- The row of the table that carries a frame of a kind. -/
def frameRow (k : FrameKind) (f : RawFrame) : Instr :=
  match k with
  | .hello => .helloReceived f
  | .locate => .locateReceived f
  | .holding => .holdingReceived f
  | .offer => .offerReceived f
  | .bid => .bidReceived f
  | .award => .awardReceived f
  | .accept => .acceptReceived f
  | .decline => .declineReceived f
  | .revoke => .revokeReceived f
  | .cancel => .cancelFrameReceived f
  | .progress => .progressReceived f
  | .result => .resultReceived f
  | .fetch => .fetchReceived f
  | .notHere => .notHereReceived f
  | .deposit => .depositReceived f
  | .credit => .creditReceived f
  | .promptNotice => .promptNoticeReceived f
  | .promptCleared => .promptClearedReceived f
  | .ack => .ackReceived f

/-- A broadcast heard, carrying the body. -/
def State.overhears (s : State) (f : RawFrame) (b : Body) : Bool := s.hears b.kind f && bodyOf b.kind f.payload == some b

/-- A unicast frame heard, addressed to this station, accepted, and carrying the body. -/
def State.accepts (s : State) (f : RawFrame) (b : Body) : Bool :=
  s.hears b.kind f && s.addressed f && bodyOf b.kind f.payload == some b

/-- A frame of a kind is heard from a peer that is DOWN, as `hears` says of one that is not (R42). -/
def State.hearsDown (s : State) (k : FrameKind) (f : RawFrame) : Bool :=
  !s.pins.resetHeld && s.line.phase != .sending && framePasses k f && f.src.toNat != s.addr && s.onLine
    && (s.peer f.src.toNat).presence == .down

/-! ### Awards -/

/-- The five conditions of the accept check (R58). -/
def State.mayAccept (s : State) (id : ReqId) (d : Nat) : Prop :=
  (s.host.state = .running ∧ s.seq.arm ≠ .fault)
    ∧ (∃ r, s.mnt.drives[d]? = some r ∧ r.state = .free ∧ r.variedOff = false)
    ∧ s.acct.spool.length + s.mnt.mounts.length < 496 ∧ s.mount id = none ∧ s.mnt.mounts.length < 16

/-- What accepting a request's award leaves in the mount table, the drives and the accounts (R58, steps 1 to 4); `m` is the record as it
stands when sourcing has begun. -/
def State.tookMount (s : State) (id : ReqId) (m : MountRec) (u : State) : Prop :=
  u.mount id = some m ∧ (∀ x, x ≠ id → u.mount x = s.mount x)
    ∧ u.mnt.drives = s.mnt.drives.modify m.drive (fun r => { r with state := .allocated, mountId := some id })
    ∧ u.account m.account = { s.account m.account with openMounts := (s.account m.account).openMounts + 1 }
    ∧ (∀ n, n ≠ m.account → u.account n = s.account n) ∧ u.acct.spool = s.acct.spool

/-- `u` is what a request of this station comes to when this station's own bid `b` is awarded, `rest` the bids behind it (R45, R57). Its
AWARD and the answer are taken in the same event: accepted, here for a reel at another station, the record is AWARDED with its mount watch
running, and FETCH is queued for the holder; declined, the award moves on to the next bid, here of another station (R58 to R60). -/
def State.awardsItself (s : State) (id : ReqId) (o : OriginRec) (b : Bid) (rest : List Bid) (u : State) : Prop :=
  let others := (∀ x, x ≠ id → u.origin x = s.origin x) ∧ u.neg.bids = s.neg.bids.filter (fun x => x.id ≠ id)
    ∧ u.neg.notices = s.neg.notices ∧ u.neg.seqCounter = s.neg.seqCounter
  (s.mayAccept id b.drive → ∀ a, o.terms.loc.station = some a → a ≠ s.addr →
    u.origin id = some { o with
        state := .awarded, bids := b :: rest, awardsMade := o.awardsMade + 1, awardee := some s.addr, bidWindow := none
        awardAnswer := none, watch := some s.timers.mountWatch }
      ∧ s.tookMount id { MountRec.make id o.terms b.drive (s.reservedEstimate o.terms.loc b.drive) with
          arrivalLimit := some s.timers.arrivalLimit } u
      ∧ u.line = (s.queueing (some a) (.fetch id o.volser o.terms.loc.slot s.addr o.cls)).line
      ∧ others ∧ u.host = s.host ∧ u.dir = s.dir ∧ u.seq = s.seq ∧ u.lane = s.lane ∧ u.prm = s.prm ∧ u.wear = s.wear)
  ∧ (¬ s.mayAccept id b.drive → ∀ c t, rest = c :: t → c.station ≠ s.addr → o.awardsMade + 1 < 3 →
    u.origin id = some { o with
        state := .awarding, bids := rest, awardsMade := o.awardsMade + 2, awardee := some c.station, bidWindow := none
        awardAnswer := some s.timers.awardAnswer }
      ∧ others ∧ u = { s.queueing (some c.station) (.award id o.terms c.drive) with neg := u.neg })
/-! ### Records that fail, prompts that end -/

/-- A record whose failure is reported to another station, and whose drive no reel has reached: no RESULT has gone, it holds its drive, and
the transmit queue has room for the report and for a PROMPT CLEARED. -/
def State.failsOpenly (s : State) (m : MountRec) : Prop :=
  m.resultSent = .none ∧ m.failure = none ∧ m.originator ≠ s.addr ∧ m.reachedMounted = false ∧ m.driveHeld = true
    ∧ s.host.state ≠ .conflict ∧ s.line.waiting = [] ∧ s.line.queue.length < 15

/-- `u` is `s` with such a record failed and closed, as far as mounts, drives, accounting and arm go (R106, R110, R182). -/
def State.failedClosed (s : State) (m : MountRec) (why : FailReason) (u : State) : Prop :=
  u.mnt.mounts = s.mnt.mounts.filter (fun x => x.id ≠ m.id) ∧ u.mnt.drives = s.mnt.drives.modify m.drive DriveRec.released
    ∧ (∃ a, u.acct.spool = s.acct.spool ++ [a] ∧ a.mountId = m.id ∧ a.outcome = .failed ∧ a.reason = some why ∧ a.charge = 0
      ∧ a.sequence = s.acct.counter)
    ∧ u.seq = { s.seq with waiting := s.seq.waiting.filter fun w => w ≠ .sourceLocal m.id }
    ∧ u.neg = s.neg ∧ u.host = s.host ∧ u.lane = s.lane ∧ u.wear = s.wear

/-- The line after a prompt has ended: PROMPT CLEARED is queued for one that was ESCALATED (R168). -/
def State.afterPrompt (s : State) (p : Prompt) : State :=
  if p.stage = .escalated then s.queueing none (.promptCleared p.number) else s

/-- An ESCALATED prompt's PROMPT NOTICE has entered the transmit queue, so that PROMPT CLEARED follows it (R168). -/
def Prompt.noticeSent (p : Prompt) : Prop := p.stage = .escalated → p.notice = .sent

/-- The postings that still wait once a mount has closed: its FETCH postings are withdrawn (R110, R166). -/
def State.postingsWithout (s : State) (id : Option ReqId) : List Prompt :=
  s.prm.postings.filter fun q => ¬ (q.kind = .fetch ∧ q.mountId = id)

/-- `u` has lost the prompt of a mount that has closed, its position free, here with nobody waiting for it, or its place among the waiters
struck (R153, R154). -/
def State.lostPrompt (s : State) (p : Prompt) (u : State) : Prop :=
  u.prm.prompts = s.prm.prompts.filter (fun q => q.number ≠ p.number)
    ∧ u.prm.cells = (match p.cellPos with
      | some i => s.prm.cells.set i .empty
      | none => s.prm.cells)
    ∧ u.prm.waiters = s.prm.waiters.filter (fun w => w ≠ .prompt p.number) ∧ u.prm.postings = s.postingsWithout p.mountId
    ∧ u.prm.remote = s.prm.remote

/-- The state with an order taken into the queue that takes over the position of an answered prompt, which has ended (R114, R160). -/
def State.takenFrom (s : State) (p : Prompt) (i : Nat) (o : ArmOrder) : State :=
  { s with
    prm := { s.prm with
      prompts := s.prm.prompts.filter fun q => q.number ≠ p.number
      cells := s.prm.cells.set i (.holding (.order s.nextOrder) (some p.volser)) }
    seq := { s.seq with
      queue := s.seq.queue ++ [{ o with number := s.nextOrder, estimate := s.legEstimate o.src o.dst, srcPos := some i }]
      counter := (s.nextOrder + 1) % 256 } }

/-- A prompt that has become a REMOVE prompt (R164). -/
def Prompt.asRemove (p : Prompt) (clock : Nat) : Prompt :=
  { p with kind := .remove, mountId := none, stage := .queued, timerStart := some clock, answer := .none, notice := .none }

end Sys2Proof.Machine
end

