-- ==== Sys2Proof/Certificates/Slice0/Obligations.lean ====
section
/-! DEFINITION. The statements for the provers. -/

open Sys2Proof Sys2Proof.Machine

/-! ### The machine and its invariants -/

/-- A step takes the command at the front of the queue and runs it with the queue's rest; with none waiting the part idles (assumption
1). -/
def Obligations.StepRunsFrontCommand : Prop :=
  (∀ (c : Instr) (rest : List Instr) (s : State), s.pending = c :: rest → step s = exec c { s with pending := rest })
    ∧ ∀ s : State, s.pending = [] → step s = .next s

/-- Every device reset leaves a state that meets all invariants, the state after power-on among them. -/
def Obligations.ResetIsSafe : Prop :=
  (∀ (p : Pins) (waiting : List Instr), let s := State.resetWith p waiting
    s.safe = true ∧ s.volsersOnce = true ∧ s.creditLaw = true ∧ s.mountsAgree)
  ∧ State.reset.safe = true ∧ State.reset.volsersOnce = true ∧ State.reset.creditLaw = true ∧ State.reset.mountsAgree

/-- R120 and R157 as an invariant of every step, whatever command it takes: the arm is never left IDLE with an eligible order queued, nor
HOLDING with an eligible place in hand, and the console never shows anything but the prompt it must show. When an order is eligible (R121)
is written out (assumption 66). At the end of an event (R116, R120) an IDLE arm takes the eligible order that no eligible one goes
before, the earliest queued among equals; it leaves the queue for the arm position, ORDER is sent with its phases and ends, A becomes its
to-location and the arm is BUSY. A HOLDING arm issues its place in the same way while that is eligible, the queue as it was. With nothing
eligible, and in BUSY and FAULT, the sequencer stays as it is. Picks from a mouth go first, then from a drive, then from a slot by class,
then from the cell and for retirement, then reads for the audit; an order without a rank in that table ranks as the model chooses
(assumption 79). R157 and R158: the console then shows the prompt of the highest priority that holds no answer and does not wait for a cell
position, the one that entered first among equals, and a change from another prompt sets the unconfirmed mark unless a key made it; the
prompt shown stays while the display is browsing and it can be shown; with none to show both marks are clear. -/
def Obligations.EveryStepSettles : Prop :=
  let may := fun (s : State) (o : ArmOrder) => ¬ (s.prm.doorOpen = true ∧ (o.src = .cell ∨ o.dst = .cell)) ∧ o.waitingCell = false
    ∧ ((∃ d, o.dst = .mouth d) → o.heldCredit = true) ∧ o.laneRetry = false
  let rank := fun o : ArmOrder => if o.purpose = .audit then 6 else if o.purpose = .cell then 5 else match o.src with
    | .mouth _ => 2
    | .drive _ => 3
    | .slot _ => 4
    | .cell => 5
  let before := fun p q : ArmOrder => rank p < rank q ∨ (rank p = 4 ∧ rank q = 4 ∧ p.cls.getD 0 < q.cls.getD 0)
  let issued := fun (s : State) (queue : List ArmOrder) (o : ArmOrder) => { s.seq with
    queue := queue, inArm := some o, arm := .busy, repeatSent := false, ref := some (s.locPoint o.dst)
    sent := s.seq.sent ++ [.order o.number o.phases (s.locPoint o.src) o.srcPos (s.locPoint o.dst) o.dstPos] }
  let shows := fun p : Prompt => p.stage ≠ .waitingCell ∧ p.answer = .none
  let priority := fun p : Prompt => match p.kind with
    | .ring => 5
    | .fetch | .unreadable => 4
    | .misfile => 3
    | .retire | .remove => 2
    | .unserved => 1
  (∀ s t : State, s.settled = true → step s = .next t → t.settled = true
    ∧ (t.seq.arm = .idle → ∀ o ∈ t.seq.queue, ¬ may t o) ∧ (t.seq.arm = .holding → ∀ o, t.seq.inArm = some o → ¬ may t o))
  ∧ ∀ (s : State) (k : Bool),
    (∀ pre o post, s.seq.arm = .idle → s.seq.queue = pre ++ o :: post → (∀ q ∈ pre ++ post, q.number ≠ o.number) → may s o →
      (∀ q ∈ pre, may s q → before o q) → (∀ q ∈ post, may s q → ¬ before q o) → (settle k s).seq = issued s (pre ++ post) o)
    ∧ (∀ o, s.seq.arm = .holding → s.seq.inArm = some o → may s o → (settle k s).seq = issued s s.seq.queue o)
    ∧ ((s.seq.arm = .idle → ∀ o ∈ s.seq.queue, ¬ may s o) → (s.seq.arm = .holding → ∀ o, s.seq.inArm = some o → ¬ may s o) →
      (settle k s).seq = s.seq)
    ∧ ((∀ q ∈ s.prm.prompts, ¬ shows q) →
      (settle k s).prm = { s.prm with shown := none, browsing := false, unconfirmed := false })
    ∧ (∀ pre p post, s.prm.prompts = pre ++ p :: post → shows p → (∀ q ∈ pre, shows q → priority q < priority p) →
      (∀ q ∈ post, shows q → priority q ≤ priority p) →
      (s.prm.browsing = false ∨ ∀ q ∈ s.prm.prompts, shows q → s.prm.shown ≠ some q.number) →
      (settle k s).prm = { s.prm with
        shown := some p.number, browsing := false
        unconfirmed := s.prm.unconfirmed || (!k && s.prm.shown ≠ none && s.prm.shown ≠ some p.number) })
    ∧ (s.prm.browsing = true → (∃ q ∈ s.prm.prompts, shows q ∧ s.prm.shown = some q.number) → (settle k s).prm = s.prm)
    ∧ settle k s = { s with seq := (settle k s).seq, prm := (settle k s).prm }

/-- The command FIFO never holds more than 8 records and the report FIFO never more than 32, whatever command a step takes. -/
def Obligations.FifosNeverOverflow : Prop :=
  ∀ s t : State, s.fifosFit = true → step s = .next t → t.fifosFit = true

/-- Whatever command a step takes, the transmit queue, the order queue, the origin, bid, mount and learnt tables, each bid list, the FETCH
and UNSERVED prompts, the remote prompt list and the lanes' lists never hold more than their places. R139, in such a state: each side's
available and reserved credit together never pass its agreed capacity, nor that what the side advertises; available credit is 0 in
AGREEING and NOT FITTED; and who holds a credit or asks for one is an order of the sequencer bound for that mouth, each once. -/
def Obligations.PlacesNeverOverflow : Prop :=
  (∀ s t : State, s.placesFit = true → step s = .next t → t.placesFit = true)
    ∧ ∀ s t : State, s.placesFit = true → s.creditLaw = true → step s = .next t → t.creditLaw = true

/-- Records held and live mount records together never pass 496, whatever command a step takes, so that a closure always finds a place
in the spool of 512. A drive and the live record that holds it name each other, a FREE drive names none, no two live records have one id,
and each account's open mounts are its live records (R90, R95, R184): every step keeps it so. -/
def Obligations.SpoolNeverOverflows : Prop :=
  (∀ s t : State, s.spoolLaw = true → step s = .next t → t.spoolLaw = true)
    ∧ ∀ s t : State, s.mountsAgree → step s = .next t → t.mountsAgree

/-- The keyed tables keep their form, keys strictly rising, whatever command a step takes. R4, with that form: a volser never stands in
two entries of the home catalogue or of the learnt table, nor in one of each. -/
def Obligations.TablesStayOrdered : Prop :=
  (∀ s t : State, s.tablesOrdered = true → step s = .next t → t.tablesOrdered = true)
    ∧ ∀ s t : State, s.tablesOrdered = true → s.volsersOnce = true → step s = .next t → t.volsersOnce = true

/-- What a station puts on the line is what another reads: the bytes of a frame with good fields spell a frame that passes the tests of
R25 and R26 and carries the same kind, source, sequence and body. -/
def Obligations.FrameRoundTrip : Prop :=
  ∀ (b : Body) (dst : Option Nat) (src seq : Nat), b.fits = true → src ≤ 15 → seq ≤ 255
    → (if b.kind.broadcast then dst = none else ∃ a, dst = some a ∧ a ≤ 15)
    → ∃ f : RawFrame, frameOfBytes (frameBytes dst src seq b) = some (b.kind, f) ∧ framePasses b.kind f = true
      ∧ f.dst = stationByte dst ∧ f.src.toNat = src ∧ f.seq.toNat = seq ∧ bodyOf b.kind f.payload = some b

/-- Device reset, from the pin and from the RESET command: the part takes its reset state, with no answer, and the commands that wait for
the part go on waiting. While the pin is held no other event does anything but the door switch; releasing it changes nothing else. The
pins, RESET in the FIFO and the held pin are as assumptions 6, 38 and 39 choose. -/
def Obligations.DeviceResetAndPin : Prop :=
  (∀ (p : StrapPins) (held : Bool) (s : State),
      exec (.deviceReset p held) s = .next (State.resetWith ⟨p, s.pins.doorOpen, held⟩ s.pending))
    ∧ (∀ (tag : Byte) (s : State), s.pins.resetHeld = false → s.host.commands = [] →
      exec (.reset tag []) s = .next (State.resetWith s.pins s.pending))
    ∧ (∀ s : State, exec .resetPinRelease s = .next { s with pins := { s.pins with resetHeld := false } })
    ∧ ∀ (c : Instr) (s : State), s.pins.resetHeld = true → (∀ p h, c ≠ .deviceReset p h) → c ≠ .resetPinRelease
      → (∀ o, c ≠ .doorSwitch o) → exec c s = .next s

/-- What device reset leaves, by block: the values that the reset rules of the chapters give. The levels of the pins are outside the rules
(assumption 6). -/
def Obligations.ResetValues : Prop :=
  ∀ (p : Pins) (waiting : List Instr), let s := State.resetWith p waiting
    (s.host.state = .config ∧ s.host.clock = 0 ∧ s.host.clockRuns = false ∧ s.host.commands = [] ∧ s.host.reports = []
      ∧ s.host.settings = Settings.default ∧ s.attention = false)
    ∧ (s.dir.catalog = [] ∧ s.dir.learnt = [])
    ∧ (s.line.queue = [] ∧ s.line.waiting = [] ∧ s.line.dedupe = [] ∧ s.line.seqCounter = 0 ∧ s.line.presence = none
      ∧ ∀ a, s.peer a = ⟨.absent, 0, none⟩)
    ∧ (s.neg.origins = [] ∧ s.neg.bids = [] ∧ s.neg.seqCounter = 0)
    ∧ (s.mnt.mounts = [] ∧ s.mnt.drives.length = min p.straps.drives 8
      ∧ ∀ r ∈ s.mnt.drives, r.state = .free ∧ r.variedOff = false ∧ r.mountId = none ∧ r.aboard = .none)
    ∧ (s.seq.queue = [] ∧ s.seq.arm = .idle ∧ s.seq.inArm = none ∧ s.seq.counter = 0 ∧ s.seq.hint = ⟨0, false⟩
      ∧ s.seq.audit.running = false ∧ s.work = 0)
    ∧ (∀ d : Side, (s.side d).outbound
        = (if (match d with | .west => p.straps.west && p.straps.address % 16 != 0
                            | .east => p.straps.east && p.straps.address % 16 != 15) then .agreeing else .notFitted)
      ∧ (s.side d).hold = false ∧ (s.side d).agreed = 0 ∧ (s.side d).available = 0 ∧ (s.side d).inbound = []
      ∧ (s.side d).undelivered = [] ∧ (s.side d).unreported = 0)
    ∧ (s.prm.cells = [.empty, .empty, .empty, .empty] ∧ s.prm.prompts = [] ∧ s.prm.remote = [] ∧ s.prm.shown = none
      ∧ s.prm.browsing = false ∧ s.prm.unconfirmed = false ∧ s.prm.doorOpen = p.doorOpen)
    ∧ (∀ n, s.wearOf n = ⟨0, 0, 0, 0, 0, .none, none⟩)
    ∧ (∀ n, s.account n = ⟨0, 0, 0, 0, false, 0⟩) ∧ s.acct.spool = [] ∧ s.acct.spoolState = .normal ∧ s.acct.counter = 0

/-! ### The host port (chapter 11) -/

/-- R195, the record port: a record written while the command FIFO holds fewer than 8 joins its tail and is shown TAKEN; otherwise it is
REJECTED and nothing else happens. A read removes the oldest report record and shows it; of an empty FIFO it shows EMPTY and removes
nothing. A report record carries its command's tag, or 0 for a notice. That the handshakes' last showing is state is the model's choice
(assumption 8). -/
def Obligations.RecordPort : Prop :=
  ∀ s : State, s.settled = true → s.pins.resetHeld = false →
    (∀ r : CmdRec, exec (.commandWrite r) s = .next (if s.host.commands.length < 8
      then { s with host := { s.host with commands := s.host.commands ++ [r], lastWrite := .taken } }
      else { s with host := { s.host with lastWrite := .rejected } }))
    ∧ (∀ r rest, s.host.reports = r :: rest →
      exec .reportRead s = .next { s with host := { s.host with reports := rest, lastRead := .record r } })
    ∧ (s.host.reports = [] → exec .reportRead s = .next { s with host := { s.host with lastRead := .isEmpty } })
    ∧ (s.attention = true ↔ s.host.reports ≠ [])
    ∧ ∀ (tag : Byte) a n r, ((Report.answer tag a).form = 1 ∧ (Report.answer tag a).tag = tag)
      ∧ ((Report.notice n).form = 2 ∧ (Report.notice n).tag = 0)
      ∧ (Report.accounting tag r).form = 3 ∧ (Report.accounting tag r).tag = tag

/-- R197: a free place goes to the requester that waits and comes first after the one last granted; to none when no place is free or
none waits. -/
def Obligations.GrantTakesNextInRotation : Prop :=
  ∀ (s : State) (k : Nat), s.host.pointer ≤ 8 →
    (s.grantee = some k ↔ s.host.reports.length < 32 ∧ 1 ≤ k ∧ k ≤ 8 ∧ s.waits k = true
      ∧ ∀ j, 1 ≤ j → j ≤ 8 → s.waits j = true → (k + 7 - s.host.pointer) % 8 ≤ (j + 7 - s.host.pointer) % 8)

/-- R197, the grant of a place to an owner of notices: its oldest notice joins the tail of the report FIFO and the pointer moves to it.
Granted to the Negotiation Unit, the request that the MOUNT RESULT reports no longer waits for it (R49). R196, the grant to the command
taker: the command at the head leaves the FIFO and is answered, BAD FIELD for a kind that is none of the twenty or a payload of the wrong
length, STATE in a state that does not take it; and the only command waiting, written with TAKEN, is taken as its row takes it on a ready
port. R204: a RESET at the head is taken whoever the grant would go to (assumption 38). -/
def Obligations.GrantMovesOldestNotice : Prop :=
  (∀ (s : State) (r : CmdRec) (cs : List CmdRec), s.pins.resetHeld = false → s.host.commands = r :: cs → r.code = 5 →
    r.payload = [] → exec .reportPlaceGrant s = .next (State.resetWith s.pins s.pending))
  ∧ ∀ (s : State) (n : Notice) (rest : List Notice), s.settled = true → s.pins.resetHeld = false → s.resetAtHead = false →
    let h := fun k => { s.host with reports := s.host.reports ++ [.notice n], pointer := k }
    (s.grantee = some 2 → s.neg.notices = n :: rest → ∀ id tag v e, n = .mountResult id tag v e → exec .reportPlaceGrant s
      = .next (sweepOrigins (updOrigin id (fun o => { o with noticeWaits := false })
          { s with host := h 2, neg := { s.neg with notices := rest } })))
    ∧ (s.grantee = some 3 → s.mnt.notices = n :: rest → (∀ id tag v e, n ≠ .mountResult id tag v e) →
      exec .reportPlaceGrant s = .next { s with host := h 3, mnt := { s.mnt with notices := rest } })
    ∧ (s.grantee = some 4 → s.seq.notices = n :: rest → (∀ id tag v e, n ≠ .mountResult id tag v e) →
      exec .reportPlaceGrant s = .next { s with host := h 4, seq := { s.seq with notices := rest } })
    ∧ (s.grantee = some 5 → s.lane.notices = n :: rest → (∀ id tag v e, n ≠ .mountResult id tag v e) →
      exec .reportPlaceGrant s = .next { s with host := h 5, lane := { s.lane with notices := rest } })
    ∧ (s.grantee = some 6 → s.wear.notices = n :: rest → (∀ id tag v e, n ≠ .mountResult id tag v e) →
      exec .reportPlaceGrant s = .next { s with host := h 6, wear := { s.wear with notices := rest } })
    ∧ (s.grantee = some 7 → s.acct.notices = n :: rest → (∀ id tag v e, n ≠ .mountResult id tag v e) →
      exec .reportPlaceGrant s = .next { s with host := h 7, acct := { s.acct with notices := rest } })
    ∧ (s.grantee = some 8 → s.host.notices = n :: rest → (∀ id tag v e, n ≠ .mountResult id tag v e) →
      exec .reportPlaceGrant s = .next { s with host := { h 8 with notices := rest } })
    ∧ (s.grantee = none → exec .reportPlaceGrant s = .next s)
    ∧ ∀ (r : CmdRec) (cs : List CmdRec), s.grantee = some 1 → s.host.commands = r :: cs →
      let taken := { s with host := { s.host with commands := cs, pointer := 1 } }
      ((r.code.toNat = 0 ∨ 20 < r.code.toNat ∨ formFits r.code.toNat r.payload = false) →
        exec .reportPlaceGrant s = .next (taken.answered r.tag (.badField none)))
      ∧ (formFits r.code.toNat r.payload = true → takenIn r.code.toNat s.host.state = false →
        exec .reportPlaceGrant s = .next (taken.answered r.tag .stateRefused))
      ∧ ∀ i code, hostRow i = some (code, r.tag, r.payload) → r.code = BitVec.ofNat 8 code → cs = [] →
        s.host.lastWrite = .taken → { s with host := { s.host with commands := [] } }.ready = true →
        exec .reportPlaceGrant s = exec i { s with host := { s.host with commands := [] } }

/-- R196, the checks every command shares: a payload of the wrong length is answered BAD FIELD, and a command that the station state does
not take is answered STATE; neither does anything else. The command row as the record at the head of the FIFO is the model's choice
(assumption 3), here and in every command below. -/
def Obligations.BadFormAndWrongState : Prop :=
  ∀ (i : Instr) (code : Nat) (tag : Byte) (p : List Byte) (s : State), hostRow i = some (code, tag, p) → s.settled = true →
    s.ready = true →
    (formFits code p = false → exec i s = .next (s.opened.answered tag (.badField none)))
    ∧ (formFits code p = true → takenIn code s.host.state = false → exec i s = .next (s.opened.answered tag .stateRefused))

/-- CONFIGURE of the quantities: each is stored, set to the nearer end of its range when it lies outside, and the answer is TAKEN, or
CLAMPED with the value stored. The unit of a CLAMPED value is the model's choice (assumption 44). -/
def Obligations.ConfigureQuantities : Prop :=
  ∀ (s : State) (tag : Byte), s.settled = true → s.ready = true → s.host.state = .config →
    let ans := fun (lo hi n : Nat) => if lo ≤ n ∧ n ≤ hi then Answer.taken else Answer.clamped [clampTo lo hi n]
    let one := fun (k1 k2 lo hi : Nat) (put : Nat → Settings → Settings) => ∀ a : Byte,
      exec (.configure tag [byteOf k1, byteOf k2, 1, a]) s
        = .next ((updSettings (put (clampTo lo hi a.toNat)) s.opened).answered tag (ans lo hi a.toNat))
    let two := fun (k1 k2 lo hi : Nat) (put : Nat → Settings → Settings) => ∀ a b : Byte,
      exec (.configure tag [byteOf k1, byteOf k2, 2, a, b]) s
        = .next ((updSettings (put (clampTo lo hi (num16 a b))) s.opened).answered tag (ans lo hi (num16 a b)))
    one 20 12 1 255 (fun n c => { c with kc := n }) ∧ one 20 29 1 255 (fun n c => { c with kt := n })
      ∧ two 16 25 0 2550 (fun n c => { c with gp := n }) ∧ two 17 25 0 25500 (fun n c => { c with hp := n })
      ∧ two 22 25 0 65534 (fun n c => { c with mp := n }) ∧ two 27 25 0 65534 (fun n c => { c with rp := n })
      ∧ one 17 28 0 255 (fun n c => { c with hopCharge := n }) ∧ two 22 28 0 65535 (fun n c => { c with shelfCharge := n })
      ∧ two 27 28 0 65535 (fun n c => { c with ringCharge := n })

/-- CONFIGURE of the places: the park position, the cell, a lane mouth of a fitted side, a drive. A point within the grid is stored as
given. A mouth of a side that is not fitted, a drive that is not fitted and a group above 15 are answered BAD FIELD with the selector, and
nothing is stored. A column or tier above 63, or a capacity outside 1 to 6, is set to the nearer end, and the answer is CLAMPED with the
quantities as stored. The value a BAD FIELD carries, and that CLAMPED leaves the selectors out, is the model's choice (assumptions 25 and
44). -/
def Obligations.ConfigurePlaces : Prop :=
  (∀ (s : State) (tag c t n d g : Byte), s.settled = true → s.ready = true → s.host.state = .config →
    c.toNat ≤ 63 → t.toNat ≤ 63 → 1 ≤ n.toNat → n.toNat ≤ 6 →
    let p : Point := ⟨c.toNat, t.toNat⟩
    let o := s.opened
    exec (.configure tag [25, 20, 2, c, t]) s
        = .next ((updSettings (fun x => { x with park := some p }) o).answered tag .taken)
      ∧ exec (.configure tag [12, 21, 2, c, t]) s
        = .next ((updSettings (fun x => { x with cell := some p }) o).answered tag .taken)
      ∧ exec (.configure tag [32, 21, 3, c, t, n]) s = .next (if s.fitted .west
        then (updSettings (fun x => { x with west := some ⟨p, n.toNat⟩ }) o).answered tag .taken
        else o.answered tag (.badField (some 1)))
      ∧ exec (.configure tag [14, 21, 3, c, t, n]) s = .next (if s.fitted .east
        then (updSettings (fun x => { x with east := some ⟨p, n.toNat⟩ }) o).answered tag .taken
        else o.answered tag (.badField (some 2)))
      ∧ exec (.configure tag [13, 31, 4, d, g, c, t]) s = .next (
        if s.mnt.drives.length ≤ d.toNat then o.answered tag (.badField (some d.toNat))
        else if 15 < g.toNat then o.answered tag (.badField (some g.toNat))
        else (updDrive d.toNat (fun r => { r with group := some g.toNat, position := some p }) o).answered tag .taken))
  ∧ ∀ (s : State) (tag c t n d g : Byte), s.settled = true → s.ready = true → s.host.state = .config →
    let p : Point := ⟨min c.toNat 63, min t.toNat 63⟩
    let cap := if n.toNat = 0 then 1 else min n.toNat 6
    let o := s.opened
    let offGrid := 63 < c.toNat ∨ 63 < t.toNat
    (offGrid →
      exec (.configure tag [25, 20, 2, c, t]) s
          = .next ((updSettings (fun x => { x with park := some p }) o).answered tag (.clamped [p.col, p.tier]))
        ∧ exec (.configure tag [12, 21, 2, c, t]) s
          = .next ((updSettings (fun x => { x with cell := some p }) o).answered tag (.clamped [p.col, p.tier]))
        ∧ (d.toNat < s.mnt.drives.length → g.toNat ≤ 15 → exec (.configure tag [13, 31, 4, d, g, c, t]) s
          = .next ((updDrive d.toNat (fun r => { r with group := some g.toNat, position := some p }) o).answered tag
            (.clamped [p.col, p.tier]))))
    ∧ ((offGrid ∨ n.toNat = 0 ∨ 6 < n.toNat) →
      (s.fitted .west = true → exec (.configure tag [32, 21, 3, c, t, n]) s
        = .next ((updSettings (fun x => { x with west := some ⟨p, cap⟩ }) o).answered tag (.clamped [p.col, p.tier, cap])))
      ∧ (s.fitted .east = true → exec (.configure tag [14, 21, 3, c, t, n]) s
        = .next ((updSettings (fun x => { x with east := some ⟨p, cap⟩ }) o).answered tag (.clamped [p.col, p.tier, cap]))))

/-- CONFIGURE of the tables: a rate, the spool marks, the wear settings, a timer, and a keyword that names no item. A quantity outside its
range is set to the nearer end, the low spool mark against the high mark as stored, and the answer is CLAMPED with the quantities as stored.
The value a BAD FIELD carries, that CLAMPED leaves the timer's number out and carries every quantity of its item is the model's choice
(assumptions 25 and 44). -/
def Obligations.ConfigureTables : Prop :=
  ∀ (s : State) (tag a b c d e f : Byte), s.settled = true → s.ready = true → s.host.state = .config →
    let o := s.opened
    exec (.configure tag [27, 29, 5, a, b, c, d, e]) s = .next (if 3 < a.toNat then o.answered tag (.badField (some a.toNat))
        else (updSettings (fun x => x.putRate a.toNat ⟨num16 b c, num16 d e⟩) o).answered tag .taken)
      ∧ (16 ≤ num16 a b → num16 a b ≤ 480 → num16 c d ≤ num16 a b - 16 →
        exec (.configure tag [28, 25, 4, a, b, c, d]) s
          = .next ((updSettings (fun x => { x with high := num16 a b, low := num16 c d }) o).answered tag .taken))
      ∧ (1 ≤ a.toNat → a.toNat ≤ 16 → 1 ≤ num16 b c → num16 b c ≤ 10000 → 1 ≤ d.toNat → d.toNat ≤ 3 →
        exec (.configure tag [32, 27, 6, a, b, c, d, e, f]) s
          = .next ((updSettings (fun x => { x with
              window := a.toNat, threshold := num16 b c, streak := d.toNat, passLimit := num16 e f }) o).answered tag .taken))
      ∧ (∀ lo hi, timerRange a.toNat = some (lo, hi) → lo ≤ num16 b c → num16 b c ≤ hi →
        exec (.configure tag [29, 22, 3, a, b, c]) s
          = .next ((updSettings (fun x => { x with timers := x.timers.put a.toNat (num16 b c) }) o).answered tag .taken))
      ∧ (let high := max 16 (min (num16 a b) 480)
        let low := min (num16 c d) (high - 16)
        (num16 a b ≠ high ∨ num16 c d ≠ low) → exec (.configure tag [28, 25, 4, a, b, c, d]) s
          = .next ((updSettings (fun x => { x with high := high, low := low }) o).answered tag (.clamped [high, low])))
      ∧ (let window := max 1 (min a.toNat 16)
        let threshold := max 1 (min (num16 b c) 10000)
        let streak := max 1 (min d.toNat 3)
        (a.toNat ≠ window ∨ num16 b c ≠ threshold ∨ d.toNat ≠ streak) → exec (.configure tag [32, 27, 6, a, b, c, d, e, f]) s
          = .next ((updSettings (fun x => { x with
              window := window, threshold := threshold, streak := streak, passLimit := num16 e f }) o).answered tag
            (.clamped [window, threshold, streak, num16 e f])))
      ∧ (∀ lo hi, timerRange a.toNat = some (lo, hi) →
        (num16 b c < lo → exec (.configure tag [29, 22, 3, a, b, c]) s
          = .next ((updSettings (fun x => { x with timers := x.timers.put a.toNat lo }) o).answered tag (.clamped [lo])))
        ∧ (hi < num16 b c → exec (.configure tag [29, 22, 3, a, b, c]) s
          = .next ((updSettings (fun x => { x with timers := x.timers.put a.toNat hi }) o).answered tag (.clamped [hi]))))
      ∧ (timerRange a.toNat = none →
        exec (.configure tag [29, 22, 3, a, b, c]) s = .next (o.answered tag (.badField (some a.toNat))))
      ∧ (Keyword.ofLetters a.toNat b.toNat = none →
        exec (.configure tag [a, b, 1, c]) s = .next (o.answered tag .unknownItem))

/-- R200: START with every positional item present takes the station to RUNNING, sets the clock to 0 and lets it advance, starts the
presence timer and puts the first HELLO in the transmit queue; the answer carries the straps. With an item missing it is answered
INCOMPLETE with what is missing, and the station stays as it was. -/
def Obligations.StartStation : Prop :=
  ∀ (s : State) (tag : Byte), s.settled = true → s.ready = true → s.host.state = .config →
    (s.itemsComplete = true → s.line.queue = [] → s.line.waiting = [] →
      let t := { s.opened with host := { s.opened.host with state := .running, clock := 0, clockRuns := true }
                               line := { s.line with presence := some s.timers.presence } }
      exec (.start tag []) s = .next ((t.queueing none (.hello t.helloNow)).answered tag (.startTaken s.host.straps)))
    ∧ (s.itemsComplete = false → exec (.start tag []) s = .next (s.opened.answered tag
        (.incomplete s.settings.park.isNone s.settings.cell.isNone s.missingDrives (s.mouthMissing .west)
          (s.mouthMissing .east))))

/-- R201: QUIESCE takes RUNNING to QUIESCED and answers with the live mount records and origin records; RESUME takes QUIESCED back to
RUNNING. -/
def Obligations.QuiesceAndResume : Prop :=
  ∀ (s : State) (tag : Byte), s.settled = true → s.ready = true →
    (s.host.state = .running → exec (.quiesce tag []) s = .next ({ s.opened with
        host := { s.opened.host with state := .quiesced } }.answered tag
          (.quiesceTaken s.mnt.mounts.length s.neg.origins.length)))
    ∧ (s.host.state = .quiesced → exec (.resume tag []) s = .next ({ s.opened with
        host := { s.opened.host with state := .running } }.answered tag .resumeTaken))

/-- The commands that only read answer with what stands and change nothing else, in every station state: STATUS, DIR READ of a slot, DIR
SEARCH for a volser, ACCOUNT READ. In CONFIG the STATION section shows the drives' configured positions too; that it shows them there only
is the model's reading (assumption 61). -/
def Obligations.ReadingCommandsOnlyAnswer : Prop :=
  ∀ (s : State) (tag : Byte), s.settled = true → s.ready = true →
    (exec (.status tag [1]) s = .next (s.opened.answered tag (.statusStation s.stationStatus))
      ∧ exec (.status tag [2]) s = .next (s.opened.answered tag (.statusPeers ((List.range 16).map s.peer)))
      ∧ exec (.status tag [3]) s = .next (s.opened.answered tag (.statusRemote s.prm.remote))
      ∧ s.stationStatus.positions = (if s.host.state = .config then s.mnt.drives.map (·.position) else [])
      ∧ s.stationStatus.drives = s.mnt.drives.map fun r => ⟨r.state, r.variedOff, r.mountId⟩)
    ∧ (∀ a b : Byte, num16 a b < 4096 → exec (.dirRead tag [a, b]) s = .next (s.opened.answered tag
        (match tableGet s.dir.catalog (num16 a b) with
          | some e => .foundHome (num16 a b) e
          | none => .absentSlot (num16 a b))))
    ∧ (∀ a b c d e f : Byte, (volserOf a b c d e f).wellFormed = true →
      exec (.dirSearch tag [a, b, c, d, e, f]) s = .next (s.opened.answered tag
        (match s.dir.catalog.find? fun x => x.2.volser = volserOf a b c d e f,
            s.dir.learnt.find? fun x => x.2.volser = volserOf a b c d e f with
          | some (slot, x), _ => .foundHome slot x
          | none, some (_, x) => .foundLearnt x
          | none, none => .absentVolser (volserOf a b c d e f))))
    ∧ ∀ n : Byte, exec (.accountRead tag [n]) s = .next (s.opened.answered tag
        (.account n.toNat ((tableGet s.acct.accounts n.toNat).getD ⟨0, 0, 0, 0, false, 0⟩)))

/-! ### Host commands that act on the blocks -/

/-- R48 and R50: a good MOUNT is refused DUPLICATE for a volser the origin table holds, and FULL with 16 records in it. Otherwise it makes
a record with the next free number and is answered STARTED with its id. A volser neither the catalogue nor the learnt table holds is
located: LOCATE is queued, with one attempt made and its window running; so is one learnt in another state than HOME. A reel that is HOME
here, or learnt HOME at its holder, begins offer round 1: OFFER is queued, its window runs, and a station that qualifies enters its own
bid. A reel that is OUT, RETIRING, RETIRED or MISSING here ends the request at once, with its notice. The host-command row as the record
at the head of the FIFO, and the windows, are the model's choice (assumptions 3 and 4). -/
def Obligations.MountStarts : Prop :=
  ∀ (s : State) (tag v1 v2 v3 v4 v5 v6 form n w c acc : Byte) (spec : DriveSpec) (write : Bool), s.settled = true →
    s.ready = true → s.lineRoom = true → (s.host.state = .running ∨ s.host.state = .quiesced) →
    specOf form n = some spec → flagOf w = some write → c.toNat ≤ 3 →
    let v := volserOf v1 v2 v3 v4 v5 v6
    v.wellFormed = true →
    let cmd := Instr.mount tag [v1, v2, v3, v4, v5, v6, form, n, w, c, acc]
    let id : ReqId := ⟨s.addr, s.nextRequest⟩
    let r := OriginRec.make id v spec write c.toNat acc.toNat tag
    let made := fun (r : OriginRec) (t : State) => { t.answered tag (.started id) with
      neg := { t.neg with origins := t.neg.origins ++ [r], seqCounter := (s.nextRequest + 1) % 256 } }
    ((s.neg.origins.any fun o => o.volser = v) = true → exec cmd s = .next (s.opened.answered tag .duplicate))
    ∧ ((s.neg.origins.any fun o => o.volser = v) = false → 16 ≤ s.neg.origins.length →
      exec cmd s = .next (s.opened.answered tag .full))
    ∧ ((s.neg.origins.any fun o => o.volser = v) = false → s.neg.origins.length < 16 →
      ((s.lookup v = .unknown ∨ ∃ e, s.lookup v = .learnt e ∧ e.carried ≠ .home) → exec cmd s = .next ((made
        { r with locateAttempts := 1, locateWindow := some s.timers.locateWindow } s.opened).queueing none (.locate id v)))
      ∧ (∀ loc : ReelLocation,
        ((∃ slot e, s.lookup v = .home slot e ∧ e.state = .home ∧ loc = ⟨some s.addr, slot, e.ring, e.pool⟩)
          ∨ ∃ e, s.lookup v = .learnt e ∧ e.carried = .home ∧ loc = ⟨some e.holder, e.slot, e.ring, e.pool⟩) →
        let own := s.qualifies id spec loc
        let t := made { r with
            state := .offered, loc := some loc, bidWindow := some s.timers.bidWindow
            bids := match own with
              | some d => [⟨s.addr, s.estimate write loc d, d⟩]
              | none => [] } s.opened
        exec cmd s = .next ({ t with neg := { t.neg with bids := match own with
            | some _ => (s.neg.bids.filter fun b : BidRec => b.id ≠ id) ++ [(⟨id, s.timers.bidWindow + s.timers.awardAnswer⟩ : BidRec)]
            | none => s.neg.bids } }.queueing none (.offer id ⟨v, write, c.toNat, acc.toNat, loc⟩ spec)))
      ∧ (∀ slot e k, s.lookup v = .home slot e → e.state.ending = some k →
        exec cmd s = .next (postNeg (.mountResult id tag v (.failed k))
          (made { r with ended := some (.failed k), noticeWaits := true, promptWaits := decide (k = .unserved) } s.opened))))

/-- R69: CANCEL of a request that is not in the table, or has ended, is answered UNKNOWN. Of a request in LOCATING or OFFERED it is
answered CANCEL TAKEN and the request ends CANCELLED; in AWARDING likewise, with REVOKE queued for the awardee; in AWARDED the record
becomes CANCELLING and CANCEL is queued for the awardee; in CANCELLING it is answered BUSY. R45: of one in AWARDED whose awardee this
station is itself no frame is queued: the CANCEL and its RESULT are taken in the same event, and the request ends at once, MOUNTED with the
note CANCEL TOO LATE for a record that has been MOUNTED and was not revoked before (assumption 33), and CANCELLED for one that waits for
its reel from another station, which turns back and gives up its drive. -/
def Obligations.CancelByState : Prop :=
  ∀ (s : State) (tag a b : Byte), s.settled = true → s.ready = true → s.lineRoom = true →
    let id := idOf a b
    let endedAs := fun (e : Ending) (o : OriginRec) (t : State) => postNeg (.mountResult id o.tag o.volser e)
      (updOrigin id (fun o => { o with
        bids := [], locateWindow := none, bidWindow := none, awardAnswer := none, watch := none
        ended := some e, noticeWaits := true, promptWaits := false }) t)
    let ended := endedAs .cancelled
    (s.origin id = none → exec (.cancel tag [a, b]) s = .next (s.opened.answered tag .unknown))
    ∧ ∀ o, s.origin id = some o →
      (o.state = .locating ∨ o.state = .offered →
        exec (.cancel tag [a, b]) s = .next ((ended o s.opened).answered tag .cancelTaken))
      ∧ (∀ x, o.state = .awarding → o.awardee = some x → x ≠ s.addr →
        exec (.cancel tag [a, b]) s = .next (((ended o s.opened).answered tag .cancelTaken).queueing (some x) (.revoke id)))
      ∧ (∀ x, o.state = .awarded → o.awardee = some x → x ≠ s.addr →
        exec (.cancel tag [a, b]) s = .next (((updOrigin id (fun o => { o with state := .cancelling }) s.opened).answered tag
          .cancelTaken).queueing (some x) (.cancel id)))
      ∧ (∀ m, o.state = .awarded → o.awardee = some s.addr → s.mount id = some m → m.originator = s.addr →
        m.resultSent ≠ .failed →
        let asked := updOrigin id (fun o => { o with state := .cancelling }) s.opened
        (m.reachedMounted = true → m.failure ≠ some .revoked → exec (.cancel tag [a, b]) s
          = .next ((endedAs (.mounted (s.addr * 8 + m.drive) true) o asked).answered tag .cancelTaken))
        ∧ ∀ h, m.reachedMounted = false → m.cancelPending = false → m.resultSent = .none → m.failure = none → m.stage = .sourcing →
          m.turningBack = false → m.driveHeld = true → (∀ p ∈ s.prm.prompts, p.mountId = some id → p.answer = .none) →
          m.home = some h → h ≠ s.addr → exec (.cancel tag [a, b]) s
            = .next ((ended o { asked with mnt := { s.mnt with
                drives := s.mnt.drives.modify m.drive DriveRec.released
                mounts := updWhere (fun x => x.id = id) (fun m => { m with
                  cancelPending := true, resultSent := .cancelled, turningBack := true, driveHeld := false })
                  s.mnt.mounts } }).answered tag .cancelTaken))
      ∧ (o.state = .cancelling → exec (.cancel tag [a, b]) s = .next (s.opened.answered tag .cancelBusy))

/-- R19 and R21: DIR WRITE is refused BUSY while the named slot, or the slot that holds the volser, is OUT or RETIRING, and the answer
names the lower of the two when both are. Otherwise the
named slot holds the volser HOME, another slot that held it is empty, every other slot is as it was, the learnt entry for it is gone and
the named slot's wear record is cleared; the answer is NEW or REPLACED, with the slot moved from. -/
def Obligations.DirWriteWritesSlot : Prop :=
  ∀ (s : State) (tag s1 s0 v1 v2 v3 v4 v5 v6 po ri : Byte) (ring : Bool), s.settled = true → s.ready = true →
    (s.host.state = .config ∨ s.host.state = .running) → flagOf ri = some ring → num16 s1 s0 < 4096 → po.toNat ≤ 15 →
    let slot := num16 s1 s0
    let v := volserOf v1 v2 v3 v4 v5 v6
    v.wellFormed = true →
    let cmd := Instr.dirWrite tag [s1, s0, v1, v2, v3, v4, v5, v6, po, ri]
    let named := ∃ e, s.entry slot = some e ∧ (e.state = .out ∨ e.state = .retiring)
    let held := fun x => ∃ e, s.homeOf v = some (x, e) ∧ (e.state = .out ∨ e.state = .retiring)
    let busy := fun b => exec cmd s = .next (s.opened.answered tag (.dirBusy b))
    (named → (∀ x, ¬ held x) → busy slot) ∧ (∀ x, held x → ¬ named → busy x) ∧ (∀ x, held x → named → busy (min slot x))
    ∧ (¬ named → (∀ x, ¬ held x) → ∃ t, exec cmd s = .next t
      ∧ (tableGet t.dir.catalog slot = some ⟨v, po.toNat, ring, .home, none⟩
        ∧ (∀ x, s.movedFrom slot v = some x → tableGet t.dir.catalog x = none)
        ∧ (∀ x, x ≠ slot → s.movedFrom slot v ≠ some x → tableGet t.dir.catalog x = tableGet s.dir.catalog x)
        ∧ t.dir.learnt = s.dir.learnt.filter fun e => e.2.volser ≠ v)
      ∧ (t.wearOf slot = ⟨0, 0, 0, 0, 0, .none, none⟩ ∧ ∀ x, x ≠ slot → t.wearOf x = s.wearOf x)
      ∧ t.host = { s.opened.host with reports := s.host.reports ++ [.answer tag (match s.entry slot with
        | some e => .replaced slot e.volser (s.movedFrom slot v)
        | none => .newEntry slot (s.movedFrom slot v))] }
      ∧ t.wear.handovers = s.wear.handovers ∧ t.wear.notices = s.wear.notices ∧ t.pins = s.pins ∧ t.line = s.line
      ∧ t.neg = s.neg ∧ t.mnt = s.mnt ∧ t.seq = s.seq ∧ t.lane = s.lane ∧ t.prm = s.prm ∧ t.acct = s.acct)

/-- R22 and R23: DIR DELETE of a slot that is HOME, OUT, RETIRED or MISSING empties it and answers with what it held, of a RETIRING one
answers BUSY, of an empty one ABSENT; of a learnt volser it deletes the entry or answers ABSENT. DIR CLEAR of a pool empties its entries
and answers with their number, or is refused BUSY with the lowest OUT or RETIRING slot among them and their count; of a state, HOME, RETIRED
or MISSING, it empties the entries in it; a state selector of another code, OUT and RETIRING among them, is answered BAD FIELD. -/
def Obligations.DirDeleteAndClear : Prop :=
  ∀ (s : State) (tag : Byte), s.settled = true → s.ready = true → (s.host.state = .config ∨ s.host.state = .running) →
    let o := s.opened
    (∀ s1 s0 v1 v2 v3 v4 v5 v6 : Byte, num16 s1 s0 < 4096 →
      exec (.dirDelete tag [1, s1, s0, v1, v2, v3, v4, v5, v6]) s = .next (match tableGet s.dir.catalog (num16 s1 s0) with
        | none => o.answered tag (.absentSlot (num16 s1 s0))
        | some e => if e.state = .retiring then o.answered tag (.dirBusy (num16 s1 s0))
          else (dropEntry (num16 s1 s0) o).answered tag (.deletedHome (num16 s1 s0) e)))
    ∧ (∀ s1 s0 v1 v2 v3 v4 v5 v6 : Byte, (volserOf v1 v2 v3 v4 v5 v6).wellFormed = true →
      let v := volserOf v1 v2 v3 v4 v5 v6
      exec (.dirDelete tag [2, s1, s0, v1, v2, v3, v4, v5, v6]) s = .next (match s.learntOf v with
        | none => o.answered tag (.absentVolser v)
        | some (_, e) => (forgetVolser v o).answered tag (.deletedLearnt e)))
    ∧ (∀ p : Byte, p.toNat ≤ 15 →
      let inPool := s.dir.catalog.filter fun e => e.2.pool = p.toNat
      let busy := inPool.filter fun e => e.2.state = .out ∨ e.2.state = .retiring
      exec (.dirClear tag [1, p]) s = .next (match busy with
        | e :: _ => o.answered tag (.clearBusy e.1 busy.length)
        | [] => { o with dir := { s.dir with catalog := s.dir.catalog.filter fun e => e.2.pool ≠ p.toNat } }.answered tag
            (.cleared inPool.length)))
    ∧ (let clears := fun (code : Byte) (st : ReelState) => exec (.dirClear tag [2, code]) s = .next
        ({ o with dir := { s.dir with catalog := s.dir.catalog.filter fun e => e.2.state ≠ st } }.answered tag
          (.cleared (s.dir.catalog.filter fun e : Nat × HomeEntry => e.2.state = st).length))
      clears 1 .home ∧ clears 4 .retired ∧ clears 5 .missing)
    ∧ ∀ code : Byte, code ∉ [1, 4, 5] → exec (.dirClear tag [2, code]) s = .next (o.answered tag (.badField none))

/-- R94 and R151: VARY DRIVE sets or clears the varied-off flag of a fitted drive and nothing else of it; VARY LANE HOLD sets the hold
flag of a fitted side and takes OPEN to HELD; RELEASE clears it, takes HELD to OPEN and grants the requests that wait, as far as credit
allows. Each answers with what then stands. -/
def Obligations.VaryDriveAndLane : Prop :=
  ∀ (s : State) (tag : Byte), s.settled = true → s.ready = true → s.host.state ≠ .conflict →
    (∀ d : Byte, ∀ r, s.drive d.toNat = some r →
      exec (.varyDrive tag [d, 1]) s = .next ((updDrive d.toNat (fun r => { r with variedOff := true }) s.opened).answered tag
        (.varied ⟨r.state, true, r.mountId⟩))
      ∧ exec (.varyDrive tag [d, 2]) s = .next ((updDrive d.toNat (fun r => { r with variedOff := false }) s.opened).answered tag
        (.varied ⟨r.state, false, r.mountId⟩)))
    ∧ (∀ d : Side, s.fitted d = true →
      let held := updSide d (fun r => { r with
        hold := true, outbound := if r.outbound = .isOpen then .held else r.outbound }) s.opened
      let released := grantCredits d (updSide d (fun r => { r with
        hold := false, outbound := if r.outbound = .held then .isOpen else r.outbound }) s.opened)
      let shown := fun t : State => Answer.laneVaried (t.side d).status (t.side d).requests.length
      exec (.varyLane tag [byteOf d.code, 1]) s = .next (held.answered tag (shown held))
        ∧ exec (.varyLane tag [byteOf d.code, 2]) s = .next (settle false (released.answered tag (shown released))))

/-- R131: AUDIT of a range within the wall starts the cursor at its first slot with its counts at 0, and is answered BUSY while an audit
runs. The cursor's step skips and counts a slot whose entry is OUT; with any other it offers a READ ONLY order for the slot, here with room
in the order queue. It does not step while an order of its own is out, a result of its own waits for the report FIFO, or the arm is in
FAULT (R133). R133: the audit ends with AUDIT DONE, which carries its range and its four counts, at a last slot that is OUT, and once the
cursor has passed the last slot and its last read has ended: here SOURCE EMPTY of an empty slot or of a HOME one, or dropped at its second
fault, in which case ARM FAULT SECOND comes before the audit's own notices, the model's choice (assumption 72). -/
def Obligations.AuditStartsAndSteps : Prop :=
  ∀ s : State, s.settled = true →
    (∀ tag a b c d : Byte, s.ready = true → (s.host.state = .running ∨ s.host.state = .quiesced) → num16 a b ≤ num16 c d →
      num16 c d < 4096 → exec (.audit tag [a, b, c, d]) s = .next (
        if s.seq.audit.running then s.opened.answered tag .auditBusy
        else { s.opened with seq := { s.seq with
            audit := ⟨true, num16 a b, num16 c d, num16 a b, 0, 0, 0, 0⟩ } }.answered tag
          (.auditStarted (num16 a b) (num16 c d))))
    ∧ (s.pins.resetHeld = false → s.seq.audit.running = true → s.auditOut = false → s.auditNoticeWaits = false →
      s.seq.arm ≠ .fault →
      (∀ e, s.entry s.seq.audit.next = some e → e.state = .out → s.seq.audit.next < s.seq.audit.last →
        exec .auditCursorStep s = .next { s with seq := { s.seq with audit := { s.seq.audit with
          skipped := s.seq.audit.skipped + 1, next := s.seq.audit.next + 1 } } })
      ∧ (∀ e, s.entry s.seq.audit.next = some e → e.state = .out → s.seq.audit.next = s.seq.audit.last →
        let a := s.seq.audit
        exec .auditCursorStep s = .next { s with seq := { s.seq with
          audit := { a with running := false, skipped := a.skipped + 1, next := a.next + 1 }
          notices := s.seq.notices ++ [.auditDone a.first a.last a.read (a.skipped + 1) a.dropped a.posted] } })
      ∧ ((∀ e, s.entry s.seq.audit.next = some e → e.state ≠ .out) → s.seq.audit.next ≤ s.seq.audit.last →
        s.orderRoom = true →
        let o := { auditRead s.seq.audit.next with
          number := s.nextOrder, estimate := s.legEstimate (.slot s.seq.audit.next) (.slot s.seq.audit.next) }
        exec .auditCursorStep s = .next (settle false { s with seq := { s.seq with
          queue := s.seq.queue ++ [o], counter := (s.nextOrder + 1) % 256
          audit := { s.seq.audit with next := s.seq.audit.next + 1 } } })))
    ∧ (s.pins.resetHeld = false → (s.auditOut = true ∨ s.auditNoticeWaits = true ∨ s.seq.audit.running = false
        ∨ s.seq.arm = .fault) →
      exec .auditCursorStep s = .next s)
    ∧ ∀ (o : ArmOrder) (k : Nat), s.pins.resetHeld = false → s.seq.audit.running = true →
      s.seq.audit.last < s.seq.audit.next → s.seq.arm = .busy → s.seq.inArm = some o → o.form = .readOnly → o.purpose = .audit →
      o.queuedBy = .audit → o.src = .slot k → o.dst = .slot k → o.srcPos = none → o.mountId = none →
      (∀ q ∈ s.seq.queue, q.number ≠ o.number ∧ q.purpose ≠ .audit) → s.seq.waiting = [] →
      let a := s.seq.audit
      let done := fun (posted : List Notice) (read dropped results : Nat) => { s.seq with
        inArm := none, audit := { a with running := false, read := read, dropped := dropped, posted := results }
        notices := s.seq.notices ++ posted ++ [Notice.auditDone a.first a.last read a.skipped dropped results] }
      let empty := exec (.armCompletion o.number .sourceEmpty none) s
      (s.entry k = none →
        empty = .next (settle false { s with seq := { done [] (a.read + 1) a.dropped a.posted with arm := .idle } }))
      ∧ (∀ e, s.entry k = some e → e.state = .home → empty = .next (settle false { s with
          seq := { done [.auditResult k .isEmpty (some (e.volser, .missing)) none] (a.read + 1) a.dropped (a.posted + 1) with
            arm := .idle }
          dir := { s.dir with catalog := tablePut s.dir.catalog k { e with state := .missing } } }))
      ∧ (o.faultTaken = true → exec (.armCompletion o.number .armFault none) s = .next { s with seq := {
          done [.armFault o.number .audit .readOnly o.src o.dst none .armFault true,
              .auditResult k .notRead ((s.entry k).map fun e => (e.volser, e.state)) none]
            a.read (a.dropped + 1) (a.posted + 1) with arm := .fault } })

/-- R118: ARM RESUME is answered STATE while the arm is not in FAULT. In FAULT it sends the last message of the order in the arm position
again and the arm is BUSY; BUSY is the answer while that order touches the cell and the door is open. With no order in the arm position
the arm becomes IDLE and takes its next order. That an ORDER sent again carries the ends of the order as they stand, and that a place
touches the cell by the from-location of its pick too, are the model's reading (assumptions 65 and 66). -/
def Obligations.ArmResumeLeavesFault : Prop :=
  ∀ (s : State) (tag : Byte), s.settled = true → s.ready = true → s.host.state ≠ .config →
    (s.seq.arm ≠ .fault → exec (.armResume tag []) s = .next (s.opened.answered tag .stateRefused))
    ∧ (s.seq.arm = .fault → ∀ o, s.seq.inArm = some o → o.touchesCell = true → s.prm.doorOpen = true →
      exec (.armResume tag []) s = .next (s.opened.answered tag .resumeBusy))
    ∧ (s.seq.arm = .fault → ∀ o, s.seq.inArm = some o → (o.touchesCell = false ∨ s.prm.doorOpen = false) →
      exec (.armResume tag []) s = .next ({ s.opened with seq := { s.seq with
        arm := .busy
        ref := some (s.locPoint o.dst)
        sent := s.seq.sent ++ [if s.seq.repeatSent then ArmMessage.repeatRead o.number
          else ArmMessage.order o.number o.phases (s.locPoint o.src) o.srcPos (s.locPoint o.dst) o.dstPos] } }.answered tag
            (.resumed (some o.number))))
    ∧ (s.seq.arm = .fault → s.seq.inArm = none →
      exec (.armResume tag []) s = .next (settle false ({ s.opened with seq := { s.seq with arm := .idle } }.answered tag
        (.resumed none))))

/-- R191: DRAIN moves the smallest of the count named, the records held, and the free report places less one for the answer; the
answer comes first, then the oldest records, oldest first, with the command's tag. The spool state is evaluated when a record has
moved. -/
def Obligations.DrainMovesOldestRecords : Prop :=
  ∀ (s : State) (tag k : Byte), s.settled = true → s.ready = true →
    let m := min k.toNat (min s.acct.spool.length (32 - s.host.reports.length - 1))
    let t := { s.opened with
      host := { s.opened.host with reports := s.host.reports ++ [.answer tag (.drained m (s.acct.spool.length - m))]
        ++ (s.acct.spool.take m).map (Report.accounting tag) }
      acct := { s.acct with spool := s.acct.spool.drop m } }
    exec (.drain tag [k]) s = .next (if m = 0 then t else evalSpool t)

/-- R189: what an evaluation does to the spool state, and the notice that entering DRAIN WANTED or WITHDRAWN posts. -/
def Obligations.SpoolStateTable : Prop :=
  ∀ s : State,
    let next := match s.acct.spoolState with
      | .normal => if 496 ≤ s.held + s.live then .withdrawn else if s.settings.high ≤ s.held then .drainWanted else .normal
      | .drainWanted => if 496 ≤ s.held + s.live then .withdrawn else if s.held ≤ s.settings.low then .normal else .drainWanted
      | .withdrawn => if s.held ≤ s.settings.low then .normal else .withdrawn
    evalSpool s = { s with acct := { s.acct with
      spoolState := next
      notices := s.acct.notices ++ (if next ≠ s.acct.spoolState ∧ next ≠ .normal then [.drainWanted next s.held s.live] else []) } }

/-- R193: ACCOUNT CLEAR of one account answers with what it held, and then sets its five totals to 0 and keeps its open mounts; of ALL it
does so to every account and answers with how many had a total. A form that is neither is answered BAD FIELD. No other account, and
nothing else, changes. -/
def Obligations.AccountClearKeepsOpenMounts : Prop :=
  ∀ (s : State) (tag : Byte), s.settled = true → s.ready = true →
    (∀ n : Byte, ∃ t, exec (.accountClear tag [1, n]) s = .next t
      ∧ t.account n.toNat = ⟨0, 0, 0, 0, false, (s.account n.toNat).openMounts⟩
      ∧ (∀ k, k ≠ n.toNat → t.account k = s.account k)
      ∧ t = { s.opened.answered tag (.accountCleared n.toNat (s.account n.toNat)) with
          acct := { s.acct with accounts := t.acct.accounts } })
    ∧ (∀ x : Byte, ∃ t, exec (.accountClear tag [2, x]) s = .next t
      ∧ (s.tablesOrdered = true → ∀ k, t.account k = ⟨0, 0, 0, 0, false, (s.account k).openMounts⟩)
      ∧ t = { s.opened.answered tag (.accountsCleared (s.acct.accounts.filter fun e => e.2.mounts ≠ 0 ∨ e.2.cancels ≠ 0
            ∨ e.2.operatorActions ≠ 0 ∨ e.2.charge ≠ 0 ∨ e.2.saturated = true).length) with
          acct := { s.acct with accounts := t.acct.accounts } })
    ∧ ∀ a x : Byte, a ≠ 1 → a ≠ 2 → exec (.accountClear tag [a, x]) s = .next (s.opened.answered tag (.badField none))

/-! ### The library line (chapters 2, 3 and 7) -/

/-- R200 and the countdowns: while the clock runs and has not reached its top, a tick adds 1 to it and takes 1 from every countdown in
seconds; otherwise it changes nothing. That these counts are countdowns moved by the tick is the model's choice (assumption 5). -/
def Obligations.ClockTickMovesSeconds : Prop :=
  ∀ s : State, s.settled = true → s.pins.resetHeld = false →
    let down := fun t : Option Nat => t.map (· - 1)
    exec .stationClockTick s = .next (if s.host.clockRuns = true ∧ s.host.clock < 4294967295 then { s with
      host := { s.host with clock := s.host.clock + 1 }
      dir := { s.dir with learnt := s.dir.learnt.map fun e => (e.1, { e.2 with lifetime := e.2.lifetime - 1 }) }
      line := { s.line with
        presence := down s.line.presence
        peers := s.line.peers.map fun e => (e.1, { e.2 with
          silence := if e.2.presence = .up then e.2.silence - 1 else e.2.silence }) }
      neg := { s.neg with origins := s.neg.origins.map fun o => { o with watch := down o.watch } }
      mnt := { s.mnt with mounts := s.mnt.mounts.map fun m => { m with
        arrivalLimit := down m.arrivalLimit, loadWait := down m.loadWait } } }
      else s)

/-- R43: a HELLO with this station's own address takes it to CONFLICT: the transmit queue and the frames that wait for it are discarded,
the presence timer stops and one ADDRESS CONFLICT notice is posted. For each waiting frame discarded, what its entry would have started
starts: the window of a LOCATE, OFFER or AWARD, the arrival limit of a FETCH, the SENT state of a PROMPT NOTICE, and a DEPOSIT offered
again leaves the undelivered deposits (the last two are the model's reading, assumption 32). In CONFLICT a further one changes nothing.
-/
def Obligations.OwnAddressHelloConflicts : Prop :=
  ∀ (s : State) (f : RawFrame), s.settled = true → s.pins.resetHeld = false → s.line.phase ≠ .sending →
    framePasses .hello f = true → f.src.toNat = s.addr →
    (s.host.state = .conflict → exec (.ownAddressHello f) s = .next s)
    ∧ (s.host.state ≠ .conflict →
      let waits := fun p : TxFrame → Prop => ∃ g ∈ s.line.waiting, p g
      let starts := fun (due : Prop) (now began before : Option Nat) => (due → now = began) ∧ (¬ due → now = before)
      let resent := fun (d : Side) (l : List Routing) => s.line.waiting.foldl (fun l g => match g.body with
        | .deposit r => if g.resend = true ∧ g.dst.bind s.sideOf = some d then dropFirst r l else l
        | _ => l) l
      ∃ u, exec (.ownAddressHello f) s = .next u
        ∧ u.host = { s.host with state := .conflict, notices := s.host.notices ++ [.addressConflict s.addr] }
        ∧ u.line = { s.line with
            queue := [], waiting := [], phase := .idle, attempt := 0, retries := 0, backoff := 0, presence := none }
        ∧ (∀ (i : Nat) o, s.neg.origins[i]? = some o → ∃ x y z,
          u.neg.origins[i]? = some { o with locateWindow := x, bidWindow := y, awardAnswer := z }
          ∧ starts (o.ended = none ∧ o.state = .locating ∧ waits fun g => ∃ v, g.body = .locate o.id v) x
            (some s.timers.locateWindow) o.locateWindow
          ∧ starts (o.ended = none ∧ o.state = .offered ∧ waits fun g => ∃ q k, g.body = .offer o.id q k) y
            (some s.timers.bidWindow) o.bidWindow
          ∧ starts (o.ended = none ∧ o.state = .awarding ∧ waits fun g => g.dst = o.awardee ∧ ∃ q k, g.body = .award o.id q k) z
            (some s.timers.awardAnswer) o.awardAnswer)
        ∧ (∀ (i : Nat) m, s.mnt.mounts[i]? = some m → ∃ x, u.mnt.mounts[i]? = some { m with arrivalLimit := x }
          ∧ starts (m.stage = .sourcing ∧ waits fun g => ∃ v a b c, g.body = .fetch m.id v a b c) x
            (some s.timers.arrivalLimit) m.arrivalLimit)
        ∧ (∀ (i : Nat) p, s.prm.prompts[i]? = some p → ∃ x, u.prm.prompts[i]? = some { p with notice := x }
          ∧ (p.notice = .offered → waits (fun g => ∃ k v, g.body = .promptNotice p.number k v) → x = .sent)
          ∧ (¬ (p.notice = .offered ∧ waits fun g => ∃ k v, g.body = .promptNotice p.number k v) → x = p.notice))
        ∧ u = { s with
          host := u.host, line := u.line
          neg := { s.neg with origins := u.neg.origins }
          mnt := { s.mnt with mounts := u.mnt.mounts }
          prm := { s.prm with prompts := u.prm.prompts }
          lane := { s.lane with
            west := { s.lane.west with undelivered := resent .west s.lane.west.undelivered }
            east := { s.lane.east with undelivered := resent .east s.lane.east.undelivered } } }
        ∧ u.neg.origins.length = s.neg.origins.length ∧ u.mnt.mounts.length = s.mnt.mounts.length
        ∧ u.prm.prompts.length = s.prm.prompts.length)

/-- R25 to R28: a frame that fails the tests, that comes while the station sends, that carries this station's own address in another kind
than HELLO, or that comes in CONFIG from a peer, changes nothing. Bytes that spell no frame change nothing, and bytes that spell one are
taken as the row of its kind takes it. What the bytes of FRAME_CHECK_FAIL do when they pass is the model's choice (assumption 31). -/
def Obligations.FramesThatAreNotTaken : Prop :=
  ∀ (s : State) (k : FrameKind) (f : RawFrame), s.settled = true → s.pins.resetHeld = false →
    ((framePasses k f = false ∨ s.line.phase = .sending ∨ (f.src.toNat = s.addr ∧ k ≠ .hello)
        ∨ (f.src.toNat ≠ s.addr ∧ s.host.state = .config)) → exec (frameRow k f) s = .next s)
    ∧ (∀ bytes, frameOfBytes bytes = none → exec (.frameCheckFail bytes) s = .next s)
    ∧ (∀ bytes, frameOfBytes bytes = some (k, f) → exec (.frameCheckFail bytes) s = exec (frameRow k f) s)

/-- R32: a duplicate of the last frame accepted from a source is acknowledged again and passed to no block. R33: a unicast frame heard
for another station empties the source's dedupe entry; of a kind other than HOLDING nothing else of it is taken. -/
def Obligations.DuplicatesAndOthersFrames : Prop :=
  ∀ (s : State) (k : FrameKind) (f : RawFrame), s.settled = true → s.hears k f = true → k.broadcast = false → k ≠ .ack →
    (f.dst.toNat = s.addr → tableGet s.line.dedupe f.src.toNat = some f.seq.toNat →
      exec (frameRow k f) s = .next { s.touched f.src.toNat with line := { (s.touched f.src.toNat).line with
        sent := s.line.sent ++ [frameBytes (some f.src.toNat) s.addr f.seq.toNat .ack] } })
    ∧ (f.dst.toNat ≠ s.addr → k ≠ .holding →
      exec (frameRow k f) s = .next { s.touched f.src.toNat with line := { (s.touched f.src.toNat).line with
        dedupe := tableDrop s.line.dedupe f.src.toNat } })

/-- R39 and R138: a HELLO that shows no restart replaces the peer's contents and makes it UP with its silence timer at the limit. From the
neighbour of a side in AGREEING that holds no credit and has no request, with a facing capacity of 1 or more, it sets the agreed capacity
to the smaller of the two ends' figures and the available credit to what is left of it, and opens the side, or holds it. R41 and R150: an
uptime below the last one shows a restart: the sender's dedupe entry, its learnt entries and its remote prompts go, a request awarded to
it, here at most one, ends FAILED PEER RESET, and its lane, here without holders, requests and undelivered deposits, agrees anew from this
HELLO. R42 and R149: a peer that was DOWN returns: its lane opens again, or is held, its undelivered deposits are queued again, oldest
first, and then one CREDIT with the unreported credit, here with no request waiting. The lane the CREDIT names is as assumption 57 says,
and the capacity a side advertises before its WL or EL item as assumption 67 says. -/
def Obligations.HelloRecordsAndAgrees : Prop :=
  (∀ (s : State) (f : RawFrame) (h old : HelloFields), s.settled = true → s.hears .hello f = true → helloOf f.payload = some h →
    (s.peer f.src.toNat).hello = some old → h.uptime < old.uptime →
    let a := f.src.toNat
    let t := setPeer a ⟨.up, s.timers.robustness * s.timers.presence, some h⟩ s
    let lost := { t with
      line := { t.line with dedupe := tableDrop s.line.dedupe a }
      dir := { s.dir with learnt := s.dir.learnt.filter fun e => e.2.holder ≠ a }
      prm := { s.prm with remote := s.prm.remote.filter fun e => e.station ≠ a } }
    ((∀ o ∈ s.neg.origins, o.awardee ≠ some a) →
      (s.sideOf a = none → exec (.helloReceived f) s = .next lost)
      ∧ ∀ d, s.sideOf a = some d → (s.side d).holders = [] → (s.side d).requests = [] → (s.side d).undelivered = [] →
        (1 ≤ (h.facing d).1 → exec (.helloReceived f) s = .next (updSide d (fun r => { r with
          agreed := min (s.advertised d) (h.facing d).1, unreported := 0
          available := min (s.advertised d) (h.facing d).1 - (h.facing d).2
          outbound := if r.hold then .held else .isOpen }) lost))
        ∧ ((h.facing d).1 = 0 → exec (.helloReceived f) s = .next (updSide d (fun r => { r with
          unreported := 0, available := 0, outbound := .agreeing }) lost)))
    ∧ ∀ o pre post, s.neg.origins = pre ++ o :: post → (∀ x ∈ pre ++ post, x.awardee ≠ some a ∧ x.id ≠ o.id) →
      o.awardee = some a → (o.state = .awarded ∨ o.state = .cancelling) → o.ended = none → s.sideOf a = none →
      exec (.helloReceived f) s = .next { lost with neg := { s.neg with
        origins := pre ++ { o with
          bids := [], locateWindow := none, bidWindow := none, awardAnswer := none, watch := none
          ended := some (.failed .peerReset), noticeWaits := true, promptWaits := false } :: post
        notices := s.neg.notices ++ [.mountResult o.id o.tag o.volser (.failed .peerReset)] } })
  ∧ (∀ (s : State) (f : RawFrame) (h : HelloFields) (d : Side), s.settled = true → s.pins.resetHeld = false →
    s.line.phase ≠ .sending → framePasses .hello f = true → s.onLine = true → helloOf f.payload = some h →
    (∀ old, (s.peer f.src.toNat).hello = some old → old.uptime ≤ h.uptime) → (s.peer f.src.toNat).presence = .down →
    s.sideOf f.src.toNat = some d → (s.side d).outbound = .down → (s.side d).downFromAgreeing = false →
    (s.side d).requests = [] → s.line.waiting = [] → (∀ g ∈ s.line.queue, g.body.kind ≠ .credit) →
    s.line.queue.length + (s.side d).undelivered.length < 16 →
    let a := f.src.toNat
    let n := (s.side d).unreported
    let t := setPeer a ⟨.up, s.timers.robustness * s.timers.presence, some h⟩ s
    let back := updSide d (fun r => { r with
      outbound := if r.hold then .held else .isOpen, undelivered := [], unreported := 0 }) t
    exec (.helloReceived f) s = .next { back with line := { back.line with
      queue := s.line.queue ++ (s.side d).undelivered.map (fun r => ⟨some a, .deposit r, false, 0, false⟩)
        ++ (if n = 0 then [] else [⟨some a, .credit d.opposite n, false, 0, false⟩]) } })
  ∧ ∀ (s : State) (f : RawFrame) (h : HelloFields), s.settled = true → s.hears .hello f = true → helloOf f.payload = some h →
    (∀ old, (s.peer f.src.toNat).hello = some old → old.uptime ≤ h.uptime) →
    let t := setPeer f.src.toNat ⟨.up, s.timers.robustness * s.timers.presence, some h⟩ s
    (s.sideOf f.src.toNat = none → exec (.helloReceived f) s = .next t)
    ∧ ∀ d, s.sideOf f.src.toNat = some d →
      ((s.side d).outbound ≠ .agreeing → exec (.helloReceived f) s = .next t)
      ∧ ((s.side d).outbound = .agreeing → (s.side d).holders = [] → (s.side d).requests = [] → 1 ≤ (h.facing d).1 →
        exec (.helloReceived f) s = .next (updSide d (fun r => { r with
          agreed := min (s.advertised d) (h.facing d).1
          available := min (s.advertised d) (h.facing d).1 - (h.facing d).2 - r.undelivered.length
          outbound := if r.hold then .held else .isOpen }) t))

/-- R12: a LOCATE for a reel of the catalogue is answered with HOLDING, from its entry; for any other there is no answer. R15, R16: a
HOLDING is learnt for its holder, one between other stations too, unless the catalogue holds the volser. R52: a HOLDING addressed to this
station that answers no request in LOCATING for its volser does nothing more; one whose reel is not HOME ends the request; one whose reel
is HOME begins its offer round 1: OFFER is queued, its window runs, and a station that qualifies enters its own bid. -/
def Obligations.LocateAndHolding : Prop :=
  (∀ (s : State) (f : RawFrame) (id : ReqId) (v : Volser), s.settled = true → s.overhears f (.locate id v) = true →
    let t := s.touched f.src.toNat
    (s.homeOf v = none → exec (.locateReceived f) s = .next t)
    ∧ ∀ slot e, s.homeOf v = some (slot, e) → s.lineRoom = true →
      exec (.locateReceived f) s = .next (t.queueing (some f.src.toNat) (.holding id v slot e.pool e.ring e.state)))
  ∧ (∀ (s : State) (f : RawFrame) (id : ReqId) (v : Volser) (slot pool : Nat) (ring : Bool) (st : ReelState),
    s.settled = true → s.overhears f (.holding id v slot pool ring st) = true → f.dst.toNat ≠ s.addr →
    let t := { s.touched f.src.toNat with line := { (s.touched f.src.toNat).line with
      dedupe := tableDrop s.line.dedupe f.src.toNat } }
    ((s.homeOf v).isSome = true → exec (.holdingReceived f) s = .next t)
    ∧ (s.homeOf v = none → exec (.holdingReceived f) s = .next { t with dir := { s.dir with
        learnt := tablePut s.dir.learnt ((s.learntOf v).elim s.learnPosition (·.1))
          ⟨v, f.src.toNat, slot, ring, pool, st, s.timers.learntLifetime⟩ } }))
  ∧ ∀ (s : State) (f : RawFrame) (id : ReqId) (v : Volser) (slot pool : Nat) (ring : Bool) (st : ReelState),
    s.settled = true → s.accepts f (.holding id v slot pool ring st) = true →
    let learnt := ⟨v, f.src.toNat, slot, ring, pool, st, s.timers.learntLifetime⟩
    let t := { s.acked f with dir := { s.dir with
      learnt := if (s.homeOf v).isSome then s.dir.learnt
        else tablePut s.dir.learnt ((s.learntOf v).elim s.learnPosition (·.1)) learnt } }
    ((∀ o, s.origin id = some o → o.state ≠ .locating ∨ o.volser ≠ v) → exec (.holdingReceived f) s = .next t)
    ∧ ∀ o, s.origin id = some o → o.state = .locating → o.volser = v →
      (∀ k, st.ending = some k → exec (.holdingReceived f) s = .next (postNeg (.mountResult id o.tag o.volser (.failed k))
        (updOrigin id (fun o => { o with
          bids := [], locateWindow := none, bidWindow := none, awardAnswer := none, watch := none
          ended := some (.failed k), noticeWaits := true, promptWaits := decide (k = .unserved) }) t)))
      ∧ (st = .home → id.station = s.addr → s.lineRoom = true →
        let loc : ReelLocation := ⟨some f.src.toNat, slot, ring, pool⟩
        let own := s.qualifies id o.spec loc
        ∃ u, exec (.holdingReceived f) s = .next u
          ∧ u.origin id = some { o with
              state := .offered, loc := some loc, round := 1, awardsMade := 0, locateWindow := none
              bidWindow := some s.timers.bidWindow
              bids := match own with
                | some d => [⟨s.addr, s.estimate o.write loc d, d⟩]
                | none => [] }
          ∧ (∀ x, x ≠ id → u.origin x = s.origin x)
          ∧ u = { t.queueing none (.offer id ⟨o.volser, o.write, o.cls, o.account, loc⟩ o.spec) with neg := u.neg }
          ∧ u.neg.notices = s.neg.notices ∧ u.neg.seqCounter = s.neg.seqCounter
          ∧ u.neg.bids = match own with
            | some _ => (s.neg.bids.filter fun b : BidRec => b.id ≠ id)
                ++ [(⟨id, s.timers.bidWindow + s.timers.awardAnswer⟩ : BidRec)]
            | none => s.neg.bids)

/-- R54 and R55: an OFFER from a peer is answered with a BID, and a bid record made, exactly when the station qualifies: it is RUNNING, its
spool is not WITHDRAWN, its arm is not in FAULT, the reel is on the shelf, its own or beyond a side that is OPEN, the bid table has a
place, and a drive is chosen. The bid record's duration, and that the BID goes to the station of the request id, are the model's
choice (assumptions 4 and 45). -/
def Obligations.OfferIsBidFor : Prop :=
  (∀ (s : State) (id : ReqId) (spec : DriveSpec) (loc : ReelLocation) (d : Nat), s.qualifies id spec loc = some d ↔
    s.host.state = .running ∧ s.acct.spoolState ≠ .withdrawn ∧ s.seq.arm ≠ .fault
      ∧ (∀ a, loc.station = some a → a ≠ s.addr →
        (if a < s.addr then s.lane.west else s.lane.east).outbound = .isOpen)
      ∧ (s.neg.bids.length < 32 ∨ ∃ b ∈ s.neg.bids, b.id = id) ∧ s.chooseDrive spec loc = some d)
  ∧ ∀ (s : State) (f : RawFrame) (id : ReqId) (q : RequestTerms) (spec : DriveSpec), s.settled = true →
    s.overhears f (.offer id q spec) = true → id.station ≠ s.addr →
    let t := s.touched f.src.toNat
    (s.qualifies id spec q.loc = none → exec (.offerReceived f) s = .next t)
    ∧ ∀ d, s.qualifies id spec q.loc = some d → s.lineRoom = true →
      exec (.offerReceived f) s = .next ({ t with neg := { s.neg with
          bids := (s.neg.bids.filter fun b : BidRec => b.id ≠ id)
            ++ [(⟨id, s.timers.bidWindow + s.timers.awardAnswer⟩ : BidRec)] } }.queueing
        (some id.station) (.bid id (s.estimate q.write q.loc d) d))

/-- R80: the drive chosen is one that is FREE, not varied off and within the drive spec, no such drive is nearer the entry point, and of
those as near it has the lowest number; none is chosen when there is none. R81: the estimate is the sum of its eight terms, at most
65,534. -/
def Obligations.DriveChoiceAndEstimate : Prop :=
  ∀ (s : State) (spec : DriveSpec) (loc : ReelLocation),
    let near := fun d => s.travel (s.locPoint (s.entryLoc loc)) (s.drivePoint d)
    let fits := fun d => ∃ r, s.mnt.drives[d]? = some r ∧ r.state = .free ∧ r.variedOff = false ∧ s.inSpec spec d r = true
    (∀ d, s.chooseDrive spec loc = some d ↔ fits d ∧ ∀ x, fits x → near d ≤ near x ∧ (near d = near x → d ≤ x))
    ∧ (s.chooseDrive spec loc = none ↔ ∀ d, ¬ fits d)
    ∧ ∀ write d, s.estimate write loc d = min 65534 (min 65534 s.workSum + s.travel s.armRef (s.locPoint (s.entryLoc loc))
        + near d + 2 * s.settings.gp + s.hopsTo loc * s.settings.hp + (if loc.station = none then s.settings.mp else 0)
        + (if write = true ∧ (loc.station = none ∨ loc.ring = false) then s.settings.rp else 0))

/-- R56: a BID for a request in OFFERED enters its bid list in place of its station's entry, and for any other does nothing. The list
stays in ascending order of estimate, and of station for equal estimates, and gains exactly the bid. -/
def Obligations.BidEntersInOrder : Prop :=
  (∀ (s : State) (f : RawFrame) (id : ReqId) (e d : Nat), s.settled = true → s.accepts f (.bid id e d) = true →
    ((∀ o, s.origin id = some o → o.state ≠ .offered) → exec (.bidReceived f) s = .next (s.acked f))
    ∧ ∀ o, s.origin id = some o → o.state = .offered → exec (.bidReceived f) s = .next (updOrigin id (fun o => { o with
        bids := insertBid ⟨f.src.toNat, e, d⟩ (o.bids.filter fun b => b.station ≠ f.src.toNat) }) (s.acked f)))
  ∧ ∀ (b : Bid) (l : List Bid),
    let le := fun x y : Bid => x.estimate < y.estimate ∨ (x.estimate = y.estimate ∧ x.station ≤ y.station)
    (l.Pairwise le → (insertBid b l).Pairwise le) ∧ (insertBid b l).Perm (b :: l)

/-- R58: the accept check of an AWARD. The first of its five conditions that fails is answered with its DECLINE, and nothing but the
bid record goes. An award that passes makes the mount record, allocates the drive, counts an open mount and queues ACCEPT for the
originator. Then sourcing begins: of a reel at another station FETCH is queued for the holder, and the arrival limit runs; one homed here
waits for its place in the order queue; for one of the shelf the FETCH prompt is posted, here with a cell position free for it, or its
posting waits. That the DECLINE goes to the AWARD's source and the ACCEPT to the station of the request id is the model's choice
(assumption 45), as are the lines in which a posting and a local sourcing wait (assumptions 10 and 11). R45, R59 and R62: an AWARD with an
id of this station itself, which has no such award of its own to this station outstanding, is accepted and revoked in one event: no frame is
queued, the drive is free again, and the record closes REVOKED with charge 0, wherever its reel is (assumption 52). -/
def Obligations.AwardIsChecked : Prop :=
  ∀ (s : State) (f : RawFrame) (id : ReqId) (q : RequestTerms) (d : Nat), s.settled = true →
    s.accepts f (.award id q d) = true → s.line.waiting = [] → s.line.queue.length < 15 →
    let t := dropBid id (s.acked f)
    let declines := fun r => exec (.awardReceived f) s = .next (t.queueing (some f.src.toNat) (.decline id r))
    let c1 := s.host.state = .running ∧ s.seq.arm ≠ .fault
    let c2 := ∃ r, s.mnt.drives[d]? = some r ∧ r.state = .free ∧ r.variedOff = false
    let c3 := s.acct.spool.length + s.mnt.mounts.length < 496
    let c4 := s.mount id = none
    let c5 := s.mnt.mounts.length < 16
    (¬ c1 → declines .quiesced) ∧ (c1 → ¬ c2 → declines .driveTaken) ∧ (c1 → c2 → ¬ c3 → declines .spool)
    ∧ (c1 → c2 → c3 → ¬ c4 → declines .idInUse) ∧ (c1 → c2 → c3 → c4 → ¬ c5 → declines .tableFull)
    ∧ (c1 → c2 → c3 → c4 → c5 → ∀ a, q.loc.station = some a → a ≠ s.addr → id.station ≠ s.addr →
      ∃ u, exec (.awardReceived f) s = .next u
        ∧ u.mount id = some { MountRec.make id q d (s.reservedEstimate q.loc d) with
            arrivalLimit := some s.timers.arrivalLimit }
        ∧ u.mnt.drives = s.mnt.drives.modify d (fun r => { r with state := .allocated, mountId := some id })
        ∧ (∀ x, x ≠ id → u.mount x = s.mount x)
        ∧ u.account q.account = { s.account q.account with openMounts := (s.account q.account).openMounts + 1 }
        ∧ (∀ n, n ≠ q.account → u.account n = s.account n)
        ∧ u.line.queue = s.line.queue ++ [⟨some id.station, .accept id d, false, 0, false⟩,
            ⟨some a, .fetch id q.volser q.loc.slot s.addr q.cls, false, 0, false⟩]
        ∧ u.neg = t.neg ∧ u.acct.spool = s.acct.spool ∧ u.host = s.host ∧ u.dir = s.dir ∧ u.seq = s.seq ∧ u.lane = s.lane
        ∧ u.prm = s.prm ∧ u.wear = s.wear)
    ∧ (c1 → c2 → c3 → c4 → c5 → id.station ≠ s.addr →
      let record := MountRec.make id q d (s.reservedEstimate q.loc d)
      let takes := fun (u : State) => exec (.awardReceived f) s = .next u ∧ s.tookMount id record u
        ∧ u.line = (t.queueing (some id.station) (.accept id d)).line ∧ u.neg = t.neg ∧ u.host = s.host ∧ u.dir = s.dir
        ∧ u.lane = s.lane ∧ u.wear = s.wear
      let fetch := { Prompt.blank .fetch q.volser with ringWanted := q.write, drive := some d, mountId := some id }
      (q.loc.station = some s.addr →
        ∃ u, takes u ∧ u.seq = { s.seq with waiting := s.seq.waiting ++ [.sourceLocal id] } ∧ u.prm = s.prm)
      ∧ (q.loc.station = none →
        (∀ i, s.openPrompts < 20 → s.prm.postings = [] → s.prm.waiters = [] → s.emptyCell = some i → s.prm.prompts.length < 255 →
          ∃ u, takes u ∧ u.seq = s.seq
            ∧ u.prm.prompts = s.prm.prompts ++ [{ fetch with
                number := s.nextPrompt, posted := s.clock, timerStart := some s.clock, cellPos := some i }]
            ∧ u.prm.cells = s.prm.cells.set i (.reserved (.prompt s.nextPrompt)) ∧ u.prm.postings = []
            ∧ u.prm.counter = (s.nextPrompt + 1) % 256)
        ∧ ((20 ≤ s.openPrompts ∨ s.prm.postings ≠ []) →
          ∃ u, takes u ∧ u.seq = s.seq ∧ u.prm = { s.prm with postings := s.prm.postings ++ [fetch] })))
    ∧ (c1 → c2 → c3 → c4 → c5 → id.station = s.addr → (∀ p ∈ s.prm.prompts, p.mountId ≠ some id) →
      (∀ o, s.origin id = some o → o.state ≠ .awarding ∨ o.awardee ≠ some s.addr) →
      ∃ u, exec (.awardReceived f) s = .next u ∧ u.mnt.mounts = s.mnt.mounts
        ∧ u.mnt.drives = s.mnt.drives.modify d (fun r => { r with state := .free, mountId := none })
        ∧ (∃ a, u.acct.spool = s.acct.spool ++ [a] ∧ a.mountId = id ∧ a.outcome = .failed ∧ a.reason = some .revoked
          ∧ a.charge = 0 ∧ a.sequence = s.acct.counter)
        ∧ (∀ n, (u.account n).openMounts = (s.account n).openMounts)
        ∧ u.seq = { s.seq with waiting := s.seq.waiting.filter fun w => w ≠ .sourceLocal id }
        ∧ u.prm = { s.prm with postings := s.postingsWithout (some id) }
        ∧ u.line = t.line ∧ u.neg = t.neg ∧ u.host = s.host ∧ u.dir = s.dir ∧ u.lane = s.lane ∧ u.wear = s.wear)

/-- R59: an ACCEPT from the awardee of a request in AWARDING makes it AWARDED, its award answer stopped and its mount watch running; any
other is answered with REVOKE. R60: a DECLINE from the awardee moves the award to the next bid, of another station or of this one (R45);
from any other station it does nothing. -/
def Obligations.AcceptAndDecline : Prop :=
  (∀ (s : State) (f : RawFrame) (id : ReqId) (d : Nat), s.settled = true → s.accepts f (.accept id d) = true →
    (∀ o, s.origin id = some o → o.state = .awarding → o.awardee = some f.src.toNat → exec (.acceptReceived f) s
      = .next (updOrigin id (fun o => { o with
          state := .awarded, awardAnswer := none, watch := some s.timers.mountWatch }) (s.acked f)))
    ∧ (s.lineRoom = true → (∀ o, s.origin id = some o → o.state ≠ .awarding ∨ o.awardee ≠ some f.src.toNat) →
      exec (.acceptReceived f) s = .next ((s.acked f).queueing (some f.src.toNat) (.revoke id))))
  ∧ ∀ (s : State) (f : RawFrame) (id : ReqId) (r : DeclineReason), s.settled = true → s.accepts f (.decline id r) = true →
    ((∀ o, s.origin id = some o → o.state ≠ .awarding ∨ o.awardee ≠ some f.src.toNat) →
      exec (.declineReceived f) s = .next (s.acked f))
    ∧ (∀ o b c rest, s.origin id = some o → o.state = .awarding → o.awardee = some f.src.toNat → o.bids = b :: c :: rest →
      o.awardsMade < 3 → c.station = s.addr → id.station = s.addr → s.lineRoom = true →
      ∃ u, exec (.declineReceived f) s = .next u ∧ (s.acked f).awardsItself id o c rest u)
    ∧ ∀ o b c rest, s.origin id = some o → o.state = .awarding → o.awardee = some f.src.toNat → o.bids = b :: c :: rest →
      o.awardsMade < 3 → c.station ≠ s.addr → s.lineRoom = true →
      ∃ u, exec (.declineReceived f) s = .next u
        ∧ u.origin id = some { o with
            bids := c :: rest, awardee := some c.station, awardsMade := o.awardsMade + 1
            awardAnswer := some s.timers.awardAnswer, bidWindow := none }
        ∧ (∀ x, x ≠ id → u.origin x = s.origin x)
        ∧ u = { (s.acked f).queueing (some c.station) (.award id o.terms c.drive) with neg := u.neg }
        ∧ u.neg.bids = s.neg.bids ∧ u.neg.notices = s.neg.notices ∧ u.neg.seqCounter = s.neg.seqCounter

/-- R62 and R70 at the awardee. A REVOKE for no live record, or for one that has been MOUNTED, removes the bid record only; for a record
of the sender whose reel has not been set moving, here of the shelf, it closes it: its FETCH prompt is withdrawn and the position freed,
here with none waiting for it, or its posting taken back, the drive is free again and an accounting record FAILED is spooled. A record
whose reel has been set moving fails REVOKED, with a cancel pending, and turns back: while it waits for its reel from another station it
gives up its drive; with its leg to the drive not yet placed, the leg goes to the home slot that the return check supplies, and the record
is RETURNING. A CANCEL for a record that has been MOUNTED is answered TOO LATE, also when one before it was answered CANCELLED in LOADING;
for one that waits for its reel from another station it is answered CANCELLED, the record turns back and gives up its drive. A CANCEL for
no live record, from another than its originator, after RESULT FAILED, a second one before MOUNTED, or one for a MOUNTED record that was
revoked before (assumption 33) does nothing. -/
def Obligations.RevokeAndCancel : Prop :=
  (∀ (s : State) (f : RawFrame) (id : ReqId), s.settled = true → s.accepts f (.revoke id) = true →
    ((∀ m, s.mount id = some m → m.originator ≠ f.src.toNat ∨ m.reachedMounted = true) →
      exec (.revokeReceived f) s = .next (dropBid id (s.acked f)))
    ∧ ∀ m, s.mount id = some m → m.originator = f.src.toNat → m.reachedMounted = false → m.driveHeld = true →
      (∀ p ∈ s.prm.prompts, p.mountId = some id → p.answer = .none) →
      let a := dropBid id (s.acked f)
      let turned := fun (stage : Stage → Stage) => updWhere (fun x : MountRec => x.id = id) (fun m => { m with
        cancelPending := true, failure := some (m.failure.getD .revoked), turningBack := true, stage := stage m.stage
        driveHeld := false }) s.mnt.mounts
      (∀ r, m.stage = .sourcing → m.home = none → m.failure = none → s.mnt.drives[m.drive]? = some r → r.state = .allocated →
        s.mountPrompt id .ring = none →
        let closes := fun (prompts : List Prompt) (cells : List CellPos) (waiters : List Holder) (line : LineUnit) =>
          ∃ u, exec (.revokeReceived f) s = .next u
          ∧ u.mnt.mounts = s.mnt.mounts.filter (fun x => x.id ≠ id)
          ∧ u.mnt.drives = s.mnt.drives.modify m.drive (fun r => { r with state := .free, mountId := none })
          ∧ (∃ a, u.acct.spool = s.acct.spool ++ [a] ∧ a.mountId = id ∧ a.outcome = .failed ∧ a.reason = some .revoked
            ∧ a.charge = 0 ∧ a.sequence = s.acct.counter)
          ∧ (u.prm.prompts = prompts ∧ u.prm.cells = cells ∧ u.prm.waiters = waiters
            ∧ u.prm.postings = s.postingsWithout (some id))
          ∧ u.line = line ∧ u.neg = a.neg ∧ u.host = s.host ∧ u.dir = s.dir ∧ u.lane = s.lane ∧ u.wear = s.wear
          ∧ u.seq = { s.seq with waiting := s.seq.waiting.filter fun w => w ≠ .sourceLocal id }
        (s.mountPrompt id .fetch = none → closes s.prm.prompts s.prm.cells s.prm.waiters (s.acked f).line)
        ∧ ∀ p, s.mountPrompt id .fetch = some p → s.prompt p.number = some p → (p.cellPos ≠ none → s.prm.waiters = []) →
          (p.stage = .escalated → p.notice = .sent ∧ s.lineRoom = true) →
          closes (s.prm.prompts.filter fun q => q.number ≠ p.number)
            (match p.cellPos with
              | some i => s.prm.cells.set i .empty
              | none => s.prm.cells)
            (s.prm.waiters.filter fun w => w ≠ .prompt p.number)
            (if p.stage = .escalated then (s.acked f).queueing none (.promptCleared p.number) else s.acked f).line)
      ∧ (∀ b, m.turningBack = false → m.stage = .sourcing → m.home = some b → b ≠ s.addr →
        exec (.revokeReceived f) s = .next { a with mnt := { s.mnt with
          drives := s.mnt.drives.modify m.drive DriveRec.released, mounts := turned fun x => x } })
      ∧ ∀ o k, m.turningBack = false → m.stage = .toDrive → m.home = some s.addr → s.returnCheck m.volser = some k →
        s.orderOf id = some o → s.order o.number = some o → s.placeIssued o = false → o.diverted = false →
        o.dst = .drive m.drive →
        let home := fun o' : ArmOrder => if o'.number = o.number then
          { o' with dst := .slot k, cellUse := .none, routing := none, laneRetry := false } else o'
        exec (.revokeReceived f) s = .next (settle false { a with
          mnt := { s.mnt with drives := s.mnt.drives.modify m.drive DriveRec.released, mounts := turned fun _ => .returning }
          seq := { s.seq with queue := s.seq.queue.map home, inArm := s.seq.inArm.map home } }))
  ∧ (∀ (s : State) (f : RawFrame) (id : ReqId), s.settled = true → s.accepts f (.cancel id) = true →
    (∀ m, s.mount id = some m → m.originator ≠ f.src.toNat ∨ m.resultSent = .failed
      ∨ (m.reachedMounted = false ∧ m.cancelPending = true) ∨ (m.reachedMounted = true ∧ m.failure = some .revoked)) →
    exec (.cancelFrameReceived f) s = .next (s.acked f))
  ∧ ∀ (s : State) (f : RawFrame) (id : ReqId) (m : MountRec), s.settled = true → s.accepts f (.cancel id) = true →
    s.mount id = some m → m.originator = f.src.toNat → m.resultSent ≠ .failed → s.lineRoom = true →
    (m.reachedMounted = true → m.failure ≠ some .revoked → exec (.cancelFrameReceived f) s
      = .next ((s.acked f).queueing (some f.src.toNat) (.result id .tooLate (s.addr * 8 + m.drive))))
    ∧ (m.reachedMounted = false → m.cancelPending = false → m.resultSent = .none → m.failure = none → m.stage = .sourcing →
      m.turningBack = false → m.driveHeld = true → (∀ p ∈ s.prm.prompts, p.mountId = some id → p.answer = .none) → ∀ a, m.home = some a → a ≠ s.addr →
      exec (.cancelFrameReceived f) s = .next ({ s.acked f with mnt := { s.mnt with
          drives := s.mnt.drives.modify m.drive DriveRec.released
          mounts := updWhere (fun x => x.id = id) (fun m => { m with
            cancelPending := true, resultSent := .cancelled, turningBack := true, driveHeld := false }) s.mnt.mounts } }.queueing
        (some f.src.toNat) (.result id .cancelled 0)))

/-- R64, R65, R66 and R71 at the originator. A PROGRESS from the awardee of a request in AWARDED or CANCELLING starts the mount watch again;
one in AWARDING does nothing, and neither does a RESULT there (assumption 51); a PROGRESS from another station is answered with REVOKE, one
for a request without an awardee among them, the model's choice (assumption 56). A RESULT FAILED or CANCELLED is taken whatever global
drive it carries, the model's choice (assumption 55).
A RESULT from the awardee of an AWARDED request ends it with its outcome and a notice; the first FAILED STALE instead sends it back to
LOCATING, its learnt entry forgotten, with a LOCATE queued. One of a CANCELLING request ends it, a mount with the note CANCEL TOO LATE,
and the first FAILED STALE there also has the learnt entry forgotten (R17). A RESULT of another station does nothing. -/
def Obligations.ProgressAndResult : Prop :=
  (∀ (s : State) (f : RawFrame) (id : ReqId), s.settled = true → s.accepts f (.progress id) = true →
    (∀ o, s.origin id = some o → o.awardee = some f.src.toNat → (o.state = .awarded ∨ o.state = .cancelling) →
      exec (.progressReceived f) s = .next (updOrigin id (fun o => if o.state = .awarded ∨ o.state = .cancelling then
          { o with watch := some s.timers.mountWatch } else o) (s.acked f)))
    ∧ (∀ o, s.origin id = some o → o.awardee = some f.src.toNat → o.state = .awarding →
      (∀ x ∈ s.neg.origins, x.id = id → x = o) → exec (.progressReceived f) s = .next (s.acked f))
    ∧ (s.lineRoom = true → (∀ o, s.origin id = some o → o.awardee ≠ some f.src.toNat) →
      exec (.progressReceived f) s = .next ((s.acked f).queueing (some f.src.toNat) (.revoke id))))
  ∧ ∀ (s : State) (f : RawFrame) (id : ReqId) (k : ResultKind) (g : Nat), s.settled = true →
    s.accepts f (.result id k g) = true →
    ((∀ o, s.origin id = some o → o.awardee ≠ some f.src.toNat ∨ o.state = .awarding) →
      exec (.resultReceived f) s = .next (s.acked f))
    ∧ (∀ o, s.origin id = some o → o.awardee = some f.src.toNat → o.state = .cancelling →
      let ending := match k with
        | .mounted | .tooLate => Ending.mounted g true
        | .failed r => .failed (.awardee r)
        | .cancelled => .cancelled
      exec (.resultReceived f) s = .next (postNeg (.mountResult id o.tag o.volser ending) (updOrigin id (fun o => { o with
        bids := [], locateWindow := none, bidWindow := none, awardAnswer := none, watch := none
        ended := some ending, noticeWaits := true, promptWaits := false }) { s.acked f with dir := { s.dir with
          learnt := if k = .failed .stale ∧ o.staleRetries = 0 then s.dir.learnt.filter fun e => e.2.volser ≠ o.volser
            else s.dir.learnt } })))
    ∧ ∀ o, s.origin id = some o → o.awardee = some f.src.toNat → o.state = .awarded →
      let ending := match k with
        | .mounted => Ending.mounted g false
        | .failed r => .failed (.awardee r)
        | .cancelled => .cancelled
        | .tooLate => .mounted g true
      ((k ≠ .failed .stale ∨ o.staleRetries ≠ 0) → exec (.resultReceived f) s
        = .next (postNeg (.mountResult id o.tag o.volser ending) (updOrigin id (fun o => { o with
            bids := [], locateWindow := none, bidWindow := none, awardAnswer := none, watch := none
            ended := some ending, noticeWaits := true, promptWaits := false }) (s.acked f))))
      ∧ (k = .failed .stale → o.staleRetries = 0 → s.lineRoom = true → ∃ u, exec (.resultReceived f) s = .next u
        ∧ u.origin id = some { o with
            state := .locating, staleRetries := 1, awardee := none, watch := none, loc := none, locateAttempts := 1
            locateWindow := some s.timers.locateWindow }
        ∧ u.dir = { s.dir with learnt := s.dir.learnt.filter fun e => e.2.volser ≠ o.volser }
        ∧ u.line.queue = s.line.queue ++ [⟨none, .locate id o.volser, false, 0, false⟩] ∧ u.neg.notices = s.neg.notices
        ∧ u.host = s.host ∧ u.mnt = s.mnt ∧ u.seq = s.seq ∧ u.lane = s.lane ∧ u.prm = s.prm ∧ u.wear = s.wear
        ∧ u.acct = s.acct)

/-- R72: a FETCH toward a side that is not fitted, or for a reel that cannot be taken out, is answered NOT HERE with its reason; one that
is granted takes the reel out for the mount and queues its pick to the mouth, here with room. A repeated FETCH, whose reel is OUT for the
same mount id, gets no answer while an order of that id to a mouth is held, and NOT HERE OUT otherwise. R73: a NOT HERE from the record's
home makes the Directory forget the reel, and closes a record that waits for it, with charge 0, its drive given up and RESULT FAILED queued
with the reason that the NOT HERE's reason maps to; for no such record it does nothing else. R17: a NOT HERE with a field outside its
tables still makes the Directory forget its volser, and nothing else (assumption 15). That a refusal goes to the FETCH's source, and that
only the home station's NOT HERE closes a record, are the model's choice (assumptions 30 and 64). -/
def Obligations.FetchAndNotHere : Prop :=
  (∀ (s : State) (f : RawFrame) (id : ReqId) (v : Volser) (slot dest cls : Nat), s.settled = true →
    s.accepts f (.fetch id v slot dest cls) = true → s.lineRoom = true →
    let side := if dest < s.addr then Side.west else .east
    ((dest = s.addr ∨ s.fitted side = false) →
      exec (.fetchReceived f) s = .next ((s.acked f).queueing (some f.src.toNat) (.notHere id v .noLane)))
    ∧ (dest ≠ s.addr → s.fitted side = true →
      (∀ r, s.takeOutAnswer slot v id = .refused r →
        exec (.fetchReceived f) s = .next ((s.acked f).queueing (some f.src.toNat) (.notHere id v r)))
      ∧ (∀ e, s.entry slot = some e → e.volser = v → e.state = .out → e.mountId = some id →
        let inHand := ∃ o ∈ s.seq.inArm.toList ++ s.seq.queue, o.mountId = some id ∧ ∃ d, o.dst = .mouth d
        (inHand → exec (.fetchReceived f) s = .next (s.acked f))
        ∧ (¬ inHand → exec (.fetchReceived f) s = .next ((s.acked f).queueing (some f.src.toNat) (.notHere id v .out))))
      ∧ ∀ e, s.entry slot = some e → e.volser = v → e.state = .home → s.orderRoom = true →
        let o := { ArmOrder.offer .mountLeg true (.slot slot) (.mouth side) .negotiation with
          number := s.nextOrder, estimate := s.legEstimate (.slot slot) (.mouth side), cls := some cls, mountId := some id
          volser := some v, routing := some ⟨v, id, .toDrive, some dest, e.ring, e.pool, 0, none⟩ }
        let a := s.acked f
        exec (.fetchReceived f) s = .next (settle false (askCredit side s.nextOrder { a with
          dir := { s.dir with catalog := tablePut s.dir.catalog slot { e with state := .out, mountId := some id } }
          seq := { s.seq with queue := s.seq.queue ++ [o], counter := (s.nextOrder + 1) % 256 } }))))
  ∧ (∀ (s : State) (f : RawFrame) (i1 i0 v1 v2 v3 v4 v5 v6 r : Byte), s.settled = true → s.hears .notHere f = true →
    s.addressed f = true → f.payload = [i1, i0, v1, v2, v3, v4, v5, v6, r] → bodyOf .notHere f.payload = none →
    exec (.notHereReceived f) s = .next { s.acked f with dir := { s.dir with
      learnt := s.dir.learnt.filter fun e => e.2.volser ≠ volserOf v1 v2 v3 v4 v5 v6 } })
  ∧ ∀ (s : State) (f : RawFrame) (id : ReqId) (v : Volser) (r : NotHereReason), s.settled = true →
    s.accepts f (.notHere id v r) = true →
    ((∀ m, s.mount id = some m → m.stage ≠ .sourcing ∨ m.home ≠ some f.src.toNat) →
      exec (.notHereReceived f) s = .next (forgetVolser v (s.acked f)))
    ∧ ∀ m, s.mount id = some m → m.stage = .sourcing → m.home = some f.src.toNat → m.originator ≠ s.addr →
      ∃ u, exec (.notHereReceived f) s = .next u ∧ u.mnt.mounts = s.mnt.mounts.filter (fun x => x.id ≠ id)
        ∧ u.dir = { s.dir with learnt := s.dir.learnt.filter fun e => e.2.volser ≠ v }
        ∧ u.acct.spool.length = s.acct.spool.length + 1 ∧ u.host = s.host ∧ u.lane = s.lane ∧ u.wear = s.wear
        ∧ (m.resultSent = .none → m.failure = none → m.reachedMounted = false → m.driveHeld = true → s.lineRoom = true →
          s.prm.prompts = [] →
          let why := match r with
            | .out | .retiring | .retired | .missing | .absent => FailReason.stale
            | .misfiled => .misfiled
            | .unreadable => .unreadable
            | .arm => .arm
            | .noLane => .transit
          u.mnt.drives = s.mnt.drives.modify m.drive DriveRec.released
            ∧ u.line = ((s.acked f).queueing (some m.originator) (.result id (.failed why) 0)).line
            ∧ (∃ a, u.acct.spool = s.acct.spool ++ [a] ∧ a.mountId = id ∧ a.outcome = .failed ∧ a.reason = some why
              ∧ a.charge = 0 ∧ a.sequence = s.acct.counter)
            ∧ u.neg = s.neg)

/-- R143: a DEPOSIT from a neighbour joins the tail of that side's inbound list, beyond the list's limit with LANE OVERRUN KEPT; with 6
records there it is dropped with LANE OVERRUN; from another station it is ignored. R144: in an empty list, with room in the order queue,
its pick from the mouth is queued at once: for a record that waits for the reel to its drive, here with no ring to insert, the record
enters TO DRIVE and PROGRESS is queued (R99); for an orphan back to where its hops say it came from (R109); for another station on through
its outbound mouth (R147); for a home slot of this station, or the cell, home; with no destination or no way, to the cell for REMOVE. R141:
a CREDIT for the side's outbound lane raises available credit to at most the agreed capacity less what is reserved, except in AGREEING, and
clears the lane-retry flags of orders to that mouth; the one request that waits, if any, is granted from it; for another lane it is
ignored. R42 and R149: a frame of any kind but HELLO heard from a DOWN neighbour does what it does once the neighbour is UP and its lane has
returned: OPEN or HELD, or AGREEING with no credit when it was AGREEING; an undelivered deposit and the unreported credit, here no more
than one of each and no request waiting, are queued first; of a DOWN peer that is no neighbour, what it does once the peer is UP. The count
LANE OVERRUN carries, the lane a CREDIT names and that the return comes before the frame are the model's choice (assumptions 36, 57 and
54). -/
def Obligations.DepositAndCredit : Prop :=
  (∀ (s : State) (f : RawFrame) (r : Routing), s.settled = true → s.accepts f (.deposit r) = true →
    (s.sideOf f.src.toNat = none → exec (.depositReceived f) s = .next (s.acked f))
    ∧ ∀ d, s.sideOf f.src.toNat = some d →
      ((s.side d).inbound ≠ [] → (s.side d).inbound.length < s.inboundLimit d → (s.side d).inbound.length < 6 →
        exec (.depositReceived f) s
          = .next (updSide d (fun x => { x with inbound := x.inbound ++ [r] }) (s.acked f)))
      ∧ ((s.side d).inbound ≠ [] → s.inboundLimit d ≤ (s.side d).inbound.length → (s.side d).inbound.length < 6 →
        exec (.depositReceived f) s = .next (postLane
          (.laneOverrun d r.volser r.mountId r.hops ((s.side d).inbound.length + 1) .kept)
          (updSide d (fun x => { x with inbound := x.inbound ++ [r] }) (s.acked f))))
      ∧ ((s.side d).inbound = [] → (s.side d).pickQueued = none → 0 < s.inboundLimit d → s.orderRoom = true →
        let n := s.nextOrder
        let pick := fun (purpose : Purpose) (dst : Loc) => { ArmOrder.offer purpose false (.mouth d) dst .lane with
          number := n, estimate := s.legEstimate (.mouth d) dst, mountId := some r.mountId, volser := some r.volser }
        let queued := fun (o : ArmOrder) => { updSide d (fun x => { x with inbound := [r], pickQueued := some n }) (s.acked f) with
          seq := { s.seq with queue := s.seq.queue ++ [o], counter := (n + 1) % 256 } }
        let goes := fun t : State => exec (.depositReceived f) s = .next (settle false t)
        (∀ m, r.purpose = .toDrive → r.destination = some s.addr → s.matching r = some m → m.turningBack = false →
          (m.write = false ∨ r.ring = true) → m.resultSent = .none → m.failure = none → m.originator ≠ s.addr →
          s.lineRoom = true →
          goes ({ queued { pick .mountLeg (.drive m.drive) with cls := some m.cls } with
            mnt := { s.mnt with mounts := updWhere (fun x => x.id = m.id) (fun m => { m with
              arrivalLimit := none, hops := r.hops, ring := if r.ring then .present else .absent, pool := r.pool
              stage := .toDrive, reserved := none }) s.mnt.mounts } }.queueing (some m.originator) (.progress m.id)))
        ∧ (r.purpose = .toDrive → r.destination = some s.addr → s.matching r = none →
          (∀ a, (d = .west → r.hops + a = s.addr) → (d = .east → s.addr + r.hops = a ∧ a ≤ 15) →
            goes (askCredit d n (queued { pick .relay (.mouth d) with
              routing := some { r with purpose := .toHome, destination := some a, counts := none } })))
          ∧ ((d = .west → s.addr < r.hops) → (d = .east → 15 < s.addr + r.hops) →
            goes (askCell (.order n) (queued { pick .returnLeg .cell with cellUse := .remove, routing := some r }))))
        ∧ (∀ a, r.destination = some a → a ≠ s.addr → (r.purpose = .toDrive ∨ r.purpose = .toHome) →
          let out := if a < s.addr then Side.west else .east
          goes (if s.fitted out = true then askCredit out n (queued { pick .relay (.mouth out) with routing := some r })
            else askCell (.order n) (queued { pick .returnLeg .cell with cellUse := .remove, routing := some r })))
        ∧ (r.purpose = .toHome → r.destination = some s.addr →
          (∀ slot e, s.homeOf r.volser = some (slot, e) →
            goes (queued { pick .returnLeg (.slot slot) with routing := some r }))
          ∧ (s.homeOf r.volser = none →
            goes (askCell (.order n) (queued { pick .returnLeg .cell with cellUse := .remove, routing := some r }))))
        ∧ (r.destination = none →
          goes (askCell (.order n) (queued { pick .returnLeg .cell with cellUse := .remove, routing := some r }))))
      ∧ (6 ≤ (s.side d).inbound.length → exec (.depositReceived f) s = .next (postLane
          (.laneOverrun d r.volser r.mountId r.hops (s.side d).inbound.length .dropped) (s.acked f))))
  ∧ (∀ (s : State) (k : FrameKind) (f : RawFrame), s.settled = true → s.hearsDown k f = true → k ≠ .hello →
    let src := f.src.toNat
    let same := fun t : State => exec (frameRow k f) s = exec (frameRow k f) t
    (s.sideOf src = none → same (s.touched src))
    ∧ ∀ d, s.sideOf src = some d → (s.side d).outbound = .down → (s.side d).requests = [] →
      let back := fun r : SideRec => { r with
        undelivered := [], unreported := 0
        outbound := if r.downFromAgreeing then .agreeing else if r.hold then .held else .isOpen
        available := if r.downFromAgreeing then 0 else r.available }
      let up := updSide d back (s.touched src)
      ((s.side d).undelivered = [] → (s.side d).unreported = 0 → same up)
      ∧ ∀ x, (s.side d).undelivered = [x] → 0 < (s.side d).unreported → s.line.waiting = [] → s.line.queue.length < 15 →
        same ((up.queueing (some src) (.deposit x)).queueing (some src) (.credit d.opposite (s.side d).unreported)))
  ∧ ∀ (s : State) (f : RawFrame) (lane : Side) (n : Nat), s.settled = true → s.accepts f (.credit lane n) = true →
    ((s.sideOf f.src.toNat = none ∨ s.sideOf f.src.toNat = some lane) → exec (.creditReceived f) s = .next (s.acked f))
    ∧ ∀ d, s.sideOf f.src.toNat = some d → lane ≠ d →
      let cleared := fun o : ArmOrder => if o.dst = .mouth d then { o with laneRetry := false } else o
      let more := fun r : SideRec => if r.outbound = .agreeing ∨ r.outbound = .notFitted then r.available
        else min (r.available + n) (r.agreed - r.holders.length)
      let t := updSide d (fun r => { r with available := more r }) (s.acked f)
      ((s.side d).requests = [] → exec (.creditReceived f) s = .next (settle false { t with seq := { s.seq with
        queue := s.seq.queue.map cleared, inArm := s.seq.inArm.map cleared } }))
      ∧ ∀ k, (s.side d).requests = [k] → (s.side d).outbound = .isOpen → (s.side d).holders.length < (s.side d).agreed →
        1 ≤ n →
        let granted := fun o : ArmOrder => if (cleared o).number = k then { cleared o with heldCredit := true } else cleared o
        exec (.creditReceived f) s = .next (settle false { updSide d (fun r => { r with
            available := more r - 1, holders := r.holders ++ [k], requests := [] }) (s.acked f) with
          seq := { s.seq with queue := s.seq.queue.map granted, inArm := s.seq.inArm.map granted } })

/-- R169: a PROMPT NOTICE joins the tail of the remote prompt list in place of the entry with its station and number, and the oldest
entry gives way when the list is full; a PROMPT CLEARED removes the entry with its station and number. -/
def Obligations.RemotePrompts : Prop :=
  (∀ (s : State) (f : RawFrame) (n : Nat) (k : PromptKind) (v : Volser), s.settled = true →
    s.overhears f (.promptNotice n k v) = true →
    let l := s.prm.remote.filter fun e => ¬ (e.station = f.src.toNat ∧ e.number = n)
    exec (.promptNoticeReceived f) s = .next { s.touched f.src.toNat with prm := { s.prm with
      remote := (if l.length < 8 then l else l.tail) ++ [⟨f.src.toNat, n, k, v⟩] } })
  ∧ ∀ (s : State) (f : RawFrame) (n : Nat), s.settled = true → s.overhears f (.promptCleared n) = true →
    exec (.promptClearedReceived f) s = .next { s.touched f.src.toNat with prm := { s.prm with
      remote := s.prm.remote.filter fun e => ¬ (e.station = f.src.toNat ∧ e.number = n) } }

/-- R30, R31 and R33: the course of the frame in service. An attempt begins; the first fixes the frame, and gives a unicast frame the line
sequence counter's value. An echo mismatch ends the attempt with a backoff. An attempt echoed whole sends a broadcast, which leaves the
queue, and leaves a unicast waiting for its ACK, which delivers it. An acknowledge wait that ends makes a retry, of three at most. R34: a
unicast whose third retry has no ACK, or whose sixteenth attempt collides, has failed and leaves the queue. Unanswered, a FETCH, DEPOSIT
or CREDIT marks its destination DOWN (R40). A failed BID removes its bid record (R55); a failed AWARD moves on to the next bid, here of
another station (R60); a failed ACCEPT acts as a REVOKE (R63), here for a record that waits for its reel from another station; a failed
FETCH closes its record as FAILED TRANSIT (R98); a failed DEPOSIT joins the undelivered ones (R140) and a failed CREDIT's count the
unreported credit (R145); any other does nothing more, which of a CANCEL, PROGRESS or RESULT is the model's reading (assumption 28). That
an attempt and an acknowledge wait end by a command of the sender, a stopped silence timer's 0 and an overrun's count are the model's
choice (assumptions 4, 53 and 36). -/
def Obligations.FrameInService : Prop :=
  ∀ (s : State) (g : TxFrame) (rest : List TxFrame), s.settled = true → s.pins.resetHeld = false → s.line.queue = g :: rest →
    let idle := { s.line with queue := rest, phase := .idle, attempt := 0, retries := 0, backoff := 0 }
    let out := s.line.sent ++ [frameBytes g.dst s.addr g.seq g.body]
    (s.line.phase = .idle → (s.host.state = .running ∨ s.host.state = .quiesced) →
      (g.begun = true → exec .transmitAttemptStart s = .next { s with line := { s.line with
        phase := .sending, attempt := s.line.attempt + 1, backoff := 0 } })
      ∧ (∀ a, g.begun = false → g.dst = some a → g.body.kind ≠ .hello →
        exec .transmitAttemptStart s = .next { s with line := { s.line with
          queue := { g with begun := true, seq := s.line.seqCounter } :: rest, seqCounter := (s.line.seqCounter + 1) % 256
          phase := .sending, attempt := s.line.attempt + 1, backoff := 0 } })
      ∧ (g.begun = false → g.dst = none → exec .transmitAttemptStart s = .next { s with line := { s.line with
        queue := { g with
          body := match g.body with
            | .hello _ => .hello s.helloNow
            | b => b
          begun := true, seq := 0 } :: rest
        phase := .sending, attempt := s.line.attempt + 1, backoff := 0 } }))
    ∧ (s.line.phase = .sending →
      (s.line.attempt < 16 → exec .echoMismatch s = .next { s with line := { s.line with
        phase := .idle, backoff := (s.addr + 7 * s.line.attempt) % 16 + 1 } })
      ∧ (g.dst = none → 16 ≤ s.line.attempt → exec .echoMismatch s = .next { s with line := idle })
      ∧ (g.dst = none → exec .attemptSuccess s = .next { s with line := { idle with sent := out } })
      ∧ (∀ a, g.dst = some a →
        exec .attemptSuccess s = .next { s with line := { s.line with phase := .ackWait, sent := out } }))
    ∧ (s.line.phase = .ackWait →
      (s.line.retries < 3 → exec .ackWaitExpiry s = .next { s with line := { s.line with
        phase := .idle, attempt := 0, retries := s.line.retries + 1 } })
      ∧ (∀ f, s.hears .ack f = true → f.dst.toNat = s.addr → let t := s.touched f.src.toNat
        exec (.ackReceived f) s = .next (if g.dst = some f.src.toNat ∧ g.seq = f.seq.toNat then
          { t with line := { t.line with queue := rest, phase := .idle, attempt := 0, retries := 0, backoff := 0 } } else t)))
    ∧ ∀ (a : Nat) (i : Instr), g.dst = some a →
      (i = .ackWaitExpiry ∧ s.line.phase = .ackWait ∧ 3 ≤ s.line.retries
        ∨ i = .echoMismatch ∧ s.line.phase = .sending ∧ 16 ≤ s.line.attempt) →
      let left := { s with line := idle }
      let lost := if s.line.phase = .sending ∨ (s.peer a).presence = .down then left
        else { setPeer a { s.peer a with presence := .down, silence := 0 } left with
          dir := { s.dir with learnt := s.dir.learnt.filter fun e => e.2.holder ≠ a }
          prm := { s.prm with remote := s.prm.remote.filter fun e => e.station ≠ a }
          lane := match s.sideOf a with
            | some d => (updSide d (fun r => { r with
                outbound := .down, downFromAgreeing := decide (r.outbound = .agreeing) }) s).lane
            | none => s.lane }
      let unbid := fun id : ReqId => { left with neg := { s.neg with bids := s.neg.bids.filter fun b => b.id ≠ id } }
      let room := s.host.state ≠ .conflict ∧ rest.length < 16 ∧ s.line.waiting = []
      (g.body.kind ∈ [.holding, .decline, .revoke, .cancel, .progress, .result, .notHere] → exec i s = .next left)
      ∧ (∀ id e d, g.body = .bid id e d → exec i s = .next (unbid id))
      ∧ (∀ id q d, g.body = .award id q d →
        ((∀ o, s.origin id = some o → o.state ≠ .awarding ∨ o.awardee ≠ some a) → exec i s = .next left)
        ∧ ∀ o b c l, s.origin id = some o → o.state = .awarding → o.awardee = some a → o.bids = b :: c :: l →
          o.awardsMade < 3 → c.station ≠ s.addr → room → ∃ u, exec i s = .next u
          ∧ u.origin id = some { o with
              bids := c :: l, awardee := some c.station, awardsMade := o.awardsMade + 1
              awardAnswer := some s.timers.awardAnswer, bidWindow := none }
          ∧ (∀ x, x ≠ id → u.origin x = s.origin x)
          ∧ u = { left.queueing (some c.station) (.award id o.terms c.drive) with neg := u.neg }
          ∧ u.neg.bids = s.neg.bids ∧ u.neg.notices = s.neg.notices ∧ u.neg.seqCounter = s.neg.seqCounter)
      ∧ (∀ id d, g.body = .accept id d →
        ((∀ m, s.mount id = some m → m.originator ≠ a ∨ m.reachedMounted = true) → exec i s = .next (unbid id))
        ∧ ∀ m b, s.mount id = some m → m.originator = a → m.reachedMounted = false → m.driveHeld = true →
          (∀ p ∈ s.prm.prompts, p.mountId = some id → p.answer = .none) → m.turningBack = false → m.stage = .sourcing →
          m.home = some b → b ≠ s.addr → exec i s = .next { unbid id with mnt := { s.mnt with
            drives := s.mnt.drives.modify m.drive DriveRec.released
            mounts := updWhere (fun x => x.id = id) (fun m => { m with
              cancelPending := true, failure := some (m.failure.getD .revoked), turningBack := true
              driveHeld := false }) s.mnt.mounts } })
      ∧ (∀ id v k d c, g.body = .fetch id v k d c →
        ((∀ m, s.mount id = some m → m.stage ≠ .sourcing) → exec i s = .next lost)
        ∧ ∀ m, s.mount id = some m → m.stage = .sourcing → m.resultSent = .none → m.failure = none → m.originator ≠ s.addr →
          m.reachedMounted = false → m.driveHeld = true → room → s.prm.prompts = [] → ∃ u, exec i s = .next u
          ∧ u.mnt.mounts = s.mnt.mounts.filter (fun x => x.id ≠ id)
          ∧ u.mnt.drives = s.mnt.drives.modify m.drive DriveRec.released
          ∧ (∃ r, u.acct.spool = s.acct.spool ++ [r] ∧ r.mountId = id ∧ r.outcome = .failed ∧ r.reason = some .transit
            ∧ r.charge = 0 ∧ r.sequence = s.acct.counter)
          ∧ u.line = (lost.queueing (some m.originator) (.result id (.failed .transit) 0)).line ∧ u.dir = lost.dir
          ∧ u.lane = lost.lane ∧ u.neg = s.neg ∧ u.host = s.host ∧ u.wear = s.wear)
      ∧ (∀ r, g.body = .deposit r →
        (s.sideOf a = none → exec i s = .next lost)
        ∧ ∀ d, s.sideOf a = some d →
          ((s.side d).undelivered.length < 6 → exec i s
            = .next (updSide d (fun x => { x with undelivered := x.undelivered ++ [r] }) lost))
          ∧ ∀ old l, (s.side d).undelivered = old :: l → l.length = 5 → exec i s
            = .next (postLane (.laneOverrun d old.volser old.mountId old.hops 6 .undelivered)
              (updSide d (fun x => { x with undelivered := l ++ [r] }) lost)))
      ∧ ∀ way n, g.body = .credit way n →
        (s.sideOf a = none → exec i s = .next lost)
        ∧ ∀ d, s.sideOf a = some d →
          exec i s = .next (updSide d (fun x => { x with unreported := min 255 (x.unreported + n) }) lost)

/-- R35: the frame that has waited longest takes a freed place, and waits on while there is none. Entering starts the window of a LOCATE,
an OFFER or an AWARD (R51, R53, R57) and the arrival limit of a FETCH (R98); a PROMPT NOTICE counts as SENT (R168), a DEPOSIT offered
again leaves the undelivered deposits (R150), and a CREDIT takes into itself the matching ones that wait (R36). R38: the presence timer,
at 0, starts again and offers a HELLO, unless one is still to begin. The line of waiting frames and when an expiry is due are the model's
choice (assumptions 5 and 10). -/
def Obligations.WaitingFrameAndPresence : Prop :=
  ∀ s : State, s.settled = true → s.pins.resetHeld = false →
    (∀ g rest, s.line.waiting = g :: rest → s.line.queue.length < 16 →
      let t := { s with line := { s.line with queue := s.line.queue ++ [g], waiting := rest } }
      let enters := fun u : State => exec .txWaitingFrameEnters s = .next u
      (g.body.kind ∈ [.hello, .holding, .bid, .accept, .decline, .revoke, .cancel, .progress, .result, .notHere, .promptCleared,
        .ack] → enters t)
      ∧ (∀ id v, g.body = .locate id v → enters (updOrigin id (fun o => if o.ended.isNone = true ∧ o.state = .locating
        then { o with locateWindow := some s.timers.locateWindow } else o) t))
      ∧ (∀ id q k, g.body = .offer id q k → enters (updOrigin id (fun o => if o.ended.isNone = true ∧ o.state = .offered
        then { o with bidWindow := some s.timers.bidWindow } else o) t))
      ∧ (∀ id q d, g.body = .award id q d → enters (updOrigin id (fun o =>
        if o.ended.isNone = true ∧ o.state = .awarding ∧ o.awardee = g.dst
        then { o with awardAnswer := some s.timers.awardAnswer } else o) t))
      ∧ (∀ id v a b c, g.body = .fetch id v a b c → enters (updMount id (fun m => if m.stage = .sourcing
        then { m with arrivalLimit := some s.timers.arrivalLimit } else m) t))
      ∧ (∀ n k v, g.body = .promptNotice n k v → enters (updPrompt n (fun p => if p.notice = .offered
        then { p with notice := .sent } else p) t))
      ∧ (∀ r, g.body = .deposit r → (g.resend = false → enters t)
        ∧ ∀ a d, g.resend = true → g.dst = some a → s.sideOf a = some d →
          enters (updSide d (fun x => { x with undelivered := dropFirst r x.undelivered }) t))
      ∧ ∀ lane n, g.body = .credit lane n → n ≤ 255 →
        let same := fun w : TxFrame => w.isCredit g.dst lane
        enters { s with line := { s.line with
          waiting := rest.filter fun w => ¬ same w
          queue := s.line.queue ++ [{ g with
            body := .credit lane (min 255 (n + ((rest.filter same).map TxFrame.creditCount).sum)) }] } })
    ∧ ((16 ≤ s.line.queue.length ∨ s.line.waiting = []) → exec .txWaitingFrameEnters s = .next s)
    ∧ (s.line.presence = some 0 → s.onLine = true →
      let t := { s with line := { s.line with presence := some s.timers.presence } }
      (s.helloPending = true → exec .presenceIntervalExpiry s = .next t)
      ∧ (s.helloPending = false → s.lineRoom = true →
        exec .presenceIntervalExpiry s = .next (t.queueing none (.hello s.helloNow))))
    ∧ (s.line.presence ≠ some 0 → exec .presenceIntervalExpiry s = .next s)

/-- R40: a peer that is UP and whose silence timer stands at 0 becomes DOWN: its learnt entries and remote prompts go, and the lane to it
goes DOWN; any other peer's expiry does nothing. R14: a learnt entry whose lifetime stands at 0 leaves the table. When an expiry is due is
the model's choice (assumption 5). -/
def Obligations.SilenceAndLearntExpiry : Prop :=
  ∀ s : State, s.settled = true → s.pins.resetHeld = false →
    (∀ a, (s.peer a).presence = .up → (s.peer a).silence = 0 →
      let lane := match s.sideOf a with
        | some d => (updSide d (fun r => { r with outbound := .down, downFromAgreeing := decide (r.outbound = .agreeing) }) s).lane
        | none => s.lane
      exec (.silenceTimerExpiry a) s = .next { setPeer a { s.peer a with presence := .down } s with
        dir := { s.dir with learnt := s.dir.learnt.filter fun e => e.2.holder ≠ a }
        prm := { s.prm with remote := s.prm.remote.filter fun e => e.station ≠ a }
        lane := lane })
    ∧ (∀ a, ((s.peer a).presence ≠ .up ∨ (s.peer a).silence ≠ 0) → exec (.silenceTimerExpiry a) s = .next s)
    ∧ (∀ k e, tableGet s.dir.learnt k = some e →
      (e.lifetime = 0 → exec (.learntLifetimeExpiry k) s
        = .next { s with dir := { s.dir with learnt := tableDrop s.dir.learnt k } })
      ∧ (e.lifetime ≠ 0 → exec (.learntLifetimeExpiry k) s = .next s))

/-! ### The originator's timers, the arm, the drives, the console, wear and accounting -/

/-- R51, R53, R57 and R61, for a request of this station. A locate window that ends with attempts left broadcasts LOCATE again, and with
none left makes the reel a shelf reel and begins offer round 1. A bid window that ends awards the head of the bid list, of another station
or of this one (R45); an empty list in round 1 begins round 2, and in round 2 ends the request FAILED UNSERVED with its prompt. Beginning
a round queues OFFER, and enters the station's own bid if it qualifies. A window that is not running expires without effect. That a window
has no clock of its own and ends by its expiry command, and that SHELF is carried as slot 0 with no ring and pool 0, is the model's choice
(assumptions 4 and 27). -/
def Obligations.LocateAndBidWindows : Prop :=
  ∀ (s : State) (id : ReqId) (o : OriginRec), s.settled = true → s.pins.resetHeld = false → s.lineRoom = true →
    id.station = s.addr → s.origin id = some o →
    let goes := fun (i : Instr) (dst : Option Nat) (body : Body) (r : OriginRec) => ∃ u, exec i s = .next u
      ∧ u.origin id = some r ∧ (∀ x, x ≠ id → u.origin x = s.origin x) ∧ u.neg.notices = s.neg.notices
      ∧ u.neg.seqCounter = s.neg.seqCounter ∧ u = { s.queueing dst body with neg := u.neg }
    let offers := fun (i : Instr) (r : OriginRec) (n : Nat) => goes i none (.offer id r.terms r.spec) { r with
      state := .offered, round := n, awardsMade := 0, locateWindow := none, bidWindow := some s.timers.bidWindow
      bids := match s.qualifies id r.spec r.terms.loc with
        | some d => [⟨s.addr, s.estimate r.write r.terms.loc d, d⟩]
        | none => [] }
    (o.state = .locating → o.locateWindow.isSome = true →
      (o.locateAttempts < s.timers.robustness → goes (.locateWindowExpiry id) none (.locate id o.volser) { o with
        locateAttempts := o.locateAttempts + 1, locateWindow := some s.timers.locateWindow })
      ∧ (s.timers.robustness ≤ o.locateAttempts →
        offers (.locateWindowExpiry id) { o with loc := some ⟨none, 0, false, 0⟩ } 1))
    ∧ (o.state = .offered → o.bidWindow.isSome = true →
      (∀ b rest, o.bids = b :: rest → b.station ≠ s.addr → o.awardsMade < 3 →
        goes (.bidWindowExpiry id) (some b.station) (.award id o.terms b.drive) { o with
          state := .awarding, awardsMade := o.awardsMade + 1, awardee := some b.station, bidWindow := none
          awardAnswer := some s.timers.awardAnswer })
      ∧ (∀ b rest, o.bids = b :: rest → b.station = s.addr → o.awardsMade < 3 →
        ∃ u, exec (.bidWindowExpiry id) s = .next u ∧ s.awardsItself id o b rest u)
      ∧ (o.bids = [] → o.round = 1 → offers (.bidWindowExpiry id) o 2)
      ∧ (o.bids = [] → o.round ≠ 1 → s.openPrompts < 20 → s.prm.postings = [] →
        ∃ u, exec (.bidWindowExpiry id) s = .next u ∧ u.origin id = none
          ∧ u.neg.notices = s.neg.notices ++ [.mountResult id o.tag o.volser (.failed .unserved)]
          ∧ u.prm.prompts = s.prm.prompts ++ [{ Prompt.blank .unserved o.volser with
              number := s.nextPrompt, requestId := some id, posted := s.clock, timerStart := some s.clock }]
          ∧ u.host = s.host ∧ u.dir = s.dir ∧ u.line = s.line ∧ u.mnt = s.mnt ∧ u.seq = s.seq ∧ u.lane = s.lane
          ∧ u.wear = s.wear ∧ u.acct = s.acct ∧ u.prm.cells = s.prm.cells))
    ∧ ((o.state ≠ .locating ∨ o.locateWindow = none) → exec (.locateWindowExpiry id) s = .next s)
    ∧ ((o.state ≠ .offered ∨ o.bidWindow = none) → exec (.bidWindowExpiry id) s = .next s)

/-- R60: an award answer that ends moves the award to the next bid, of another station or of this one (R45). R55: a bid record expires.
R64: a mount watch that stands at 0 ends the request FAILED TIMEOUT. An expiry that is not due changes nothing. What an expiry command
does, and when it is due, is the model's choice (assumptions 4 and 5); the effects are the rules'. -/
def Obligations.AwardTimers : Prop :=
  (∀ (s : State) (id : ReqId), s.settled = true → s.pins.resetHeld = false →
    exec (.bidRecordExpiry id) s
      = .next { s with neg := { s.neg with bids := s.neg.bids.filter fun b => b.id ≠ id } })
  ∧ ∀ (s : State) (id : ReqId) (o : OriginRec), s.settled = true → s.pins.resetHeld = false → s.origin id = some o →
    (∀ b c rest, o.state = .awarding → o.awardAnswer.isSome = true → o.bids = b :: c :: rest → o.awardsMade < 3 →
      c.station ≠ s.addr → s.lineRoom = true → ∃ u, exec (.awardAnswerExpiry id) s = .next u
        ∧ u.origin id = some { o with
            bids := c :: rest, awardee := some c.station, awardsMade := o.awardsMade + 1
            awardAnswer := some s.timers.awardAnswer, bidWindow := none }
        ∧ (∀ x, x ≠ id → u.origin x = s.origin x)
        ∧ u = { s.queueing (some c.station) (.award id o.terms c.drive) with neg := u.neg }
        ∧ u.neg.bids = s.neg.bids ∧ u.neg.notices = s.neg.notices ∧ u.neg.seqCounter = s.neg.seqCounter)
    ∧ (∀ b c rest, o.state = .awarding → o.awardAnswer.isSome = true → o.bids = b :: c :: rest → o.awardsMade < 3 →
      c.station = s.addr → id.station = s.addr → s.lineRoom = true →
      ∃ u, exec (.awardAnswerExpiry id) s = .next u ∧ s.awardsItself id o c rest u)
    ∧ ((o.state ≠ .awarding ∨ o.awardAnswer = none) → exec (.awardAnswerExpiry id) s = .next s)
    ∧ ((o.state = .awarded ∨ o.state = .cancelling) → o.watch = some 0 → exec (.mountWatchExpiry id) s
        = .next (postNeg (.mountResult id o.tag o.volser (.failed .timeout)) (updOrigin id (fun o => { o with
          bids := [], locateWindow := none, bidWindow := none, awardAnswer := none, watch := none
          ended := some (.failed .timeout), noticeWaits := true, promptWaits := false }) s)))
    ∧ (o.watch ≠ some 0 → exec (.mountWatchExpiry id) s = .next s)

/-- R97: local sourcing, with a place for its order, takes the reel out of its slot for the mount and queues the pick with READ to the
drive, here with no ring to insert; the record enters TO DRIVE and PROGRESS is queued for its originator, here another station. It waits
while 12 orders are queued or an order offer waits. R114: the waiting offer made earliest enters the order queue with the next number and
its estimate once a place is free, and waits until then. R7: a waiting pick that takes a returning record's reel home from the cell has
its return check as it enters: its slot, or the cell for REMOVE. That local sourcings wait in the same line as offers, behind them, is the
model's choice (assumptions 10 and 11). -/
def Obligations.SourcingAndWaitingOffers : Prop :=
  (∀ (s : State) (id : ReqId) (m : MountRec) (slot : Nat) (e : HomeEntry) (rest : List WaitingOffer), s.settled = true →
    s.pins.resetHeld = false → s.lineRoom = true → s.seq.waiting = .sourceLocal id :: rest → s.orderRoom = true →
    s.mount id = some m → s.homeOf m.volser = some (slot, e) → s.entry slot = some e → e.state = .home →
    (m.write = false ∨ e.ring = true) → m.resultSent = .none → m.failure = none → m.originator ≠ s.addr →
    let o := { ArmOrder.offer .mountLeg true (.slot slot) (.drive m.drive) .mount with
      number := s.nextOrder, estimate := s.legEstimate (.slot slot) (.drive m.drive), cls := some m.cls, mountId := some id
      volser := some m.volser }
    let t := { s with
      seq := { s.seq with waiting := rest, queue := s.seq.queue ++ [o], counter := (s.nextOrder + 1) % 256 }
      dir := { s.dir with catalog := tablePut s.dir.catalog slot { e with state := .out, mountId := some id } }
      mnt := { s.mnt with mounts := updWhere (fun x => x.id = id) (fun m => { m with
        homeSlot := slot, ring := if e.ring then .present else .absent, stage := .toDrive, reserved := none }) s.mnt.mounts } }
    exec (.sourcingLocal id) s = .next (settle false (t.queueing (some m.originator) (.progress id))))
  ∧ (∀ (s : State) (id : ReqId), s.settled = true → s.pins.resetHeld = false →
    (12 ≤ s.seq.queue.length ∨ (∃ o p st, .order o p st ∈ s.seq.waiting) ∨ (∃ d, .laneHead d ∈ s.seq.waiting)
      ∨ .sourceLocal id ∉ s.seq.waiting) → exec (.sourcingLocal id) s = .next s)
  ∧ ∀ (s : State) (o : ArmOrder) (rest : List WaitingOffer), s.settled = true → s.pins.resetHeld = false →
    s.seq.waiting = .order o none none :: rest → o.purpose ≠ .audit →
    let enters := fun o : ArmOrder => { s with seq := { s.seq with
        waiting := rest
        queue := s.seq.queue ++ [{ o with number := s.nextOrder, estimate := s.legEstimate o.src o.dst }]
        counter := (s.nextOrder + 1) % 256 } }
    (12 ≤ s.seq.queue.length → exec .orderOfferTaken s = .next s)
    ∧ ((∃ n, o.dst = .slot n) → o.src ≠ .cell → s.seq.queue.length < 12 →
      exec .orderOfferTaken s = .next (settle false (enters o)))
    ∧ ∀ id m, o.src = .cell → o.form = .pick → o.queuedBy = .mount → o.mountId = some id → s.mount id = some m →
      (m.turningBack = true ∨ m.stage = .returning) → m.home = some s.addr → s.seq.queue.length < 12 →
      (∀ k, s.returnCheck m.volser = some k → exec .orderOfferTaken s
        = .next (settle false (enters { o with dst := .slot k, cellUse := .none, routing := none })))
      ∧ (s.returnCheck m.volser = none → exec .orderOfferTaken s
        = .next (settle false (askCell (.order s.nextOrder) (enters { o with
          dst := .cell, cellUse := .remove, routing := none }))))

/-- What a COMPLETION does to the order in flight (R116 to R126, R129, R130). One that names another order, or comes while the arm is not
BUSY, only gets the notice PROTOCOL. An order's first GRIP FAULT or ARM FAULT puts the arm in FAULT with a notice (assumption 73); its second drops it:
the reel, here of a record's leg from a slot to its drive or to the cell for a ring, is MISSING and the record closes FAILED ARM. So is
DEST OCCUPIED in the cell, and a result that does not fit the order's form, a fault (R117). A pick that completes, its label found where
it was read, becomes the place order in hand, and the label found becomes the hint: a pick-back frees its drive, one that no record holds
too, and has its return check, and the head of a lane leaves it, its credit returned. The first UNREADABLE has the label read again, and
at a second, or a MISMATCH, the reel goes to the cell; a MISMATCH makes its entry MISSING and its record fails MISFILED. A place into a
home slot brings the reel HOME with its ring, hands the slot and counts to the Wear Monitor and closes the record, if it is of one; a
place on the drive sends LOAD; one at a mouth spends the credit and sends DEPOSIT; one in the cell posts the prompt its order calls for.
DEST OCCUPIED leaves the reel in hand: it goes to the cell from a slot, waits at a mouth, and turns back from a drive. SOURCE EMPTY of a
slot makes the entry MISSING, and a record's pick closes it FAILED MISSING; of a mouth it posts LANE EMPTY; of an audit read of a HOME
slot it marks the entry MISSING with a notice. R177: a CELL order's place posts the RETIRE prompt, its retirement PROMPTED; one that finds
no reel or is dropped leaves the entry MISSING and abandons the retirement, DUE again with a notice. A cell position is here at once free,
and no other order has the number. The lane a CREDIT names, that a pick-back frees a drive no record holds and clears the model's field
reelLeft, and that other than eight symbols are none, are the model's choice (assumptions 57, 17 and 37). -/
def Obligations.CompletionsAreApplied : Prop :=
  ∀ (s : State) (n : Nat) (r : ArmResult) (sym : Option (List Nat)), s.settled = true → s.pins.resetHeld = false →
    ((s.seq.arm ≠ .busy ∨ ∀ o, s.seq.inArm = some o → o.number ≠ n) → exec (.armCompletion n r sym) s
      = .next { s with seq := { s.seq with notices := s.seq.notices ++ [.armProtocol n r] } })
    ∧ ∀ o, s.seq.arm = .busy → s.seq.inArm = some o → o.number = n → (∀ q ∈ s.seq.queue, q.number ≠ n) →
      let goes := fun t : State => exec (.armCompletion n r sym) s = .next (settle false t)
      let read := fun out : LabelOutcome => Phase.read ∈ o.phases
        ∧ ∃ l, sym = some l ∧ l.length = 8 ∧ labelSearch (if o.form = .pick then o.volser else none) s.seq.hint l = out
      let found := fun h : Hint => (Phase.read ∉ o.phases ∧ h = s.seq.hint) ∨ read (.found h)
      let inHand := fun (f : ArmOrder → ArmOrder) (h : Hint) (t : State) => { t with seq := { s.seq with
        inArm := some (f { o with form := .place, phases := [.moveTo, .place] }), arm := .holding, hint := h } }
      let toCell := fun (i : Nat) (use : CellUse) (t : State) => inHand (fun o => { o with
          dst := .cell, cellUse := use, routing := none, laneRetry := false, dstPos := some i, waitingCell := false }) s.seq.hint
        { t with prm := { s.prm with cells := s.prm.cells.set i (.reserved (.order n)) } }
      let freeCell := fun i : Nat => s.prm.waiters = [] ∧ s.emptyCell = some i
      let missing := fun (k : Nat) (e : HomeEntry) => { s.dir with
        catalog := tablePut s.dir.catalog k { e with state := .missing, mountId := none } }
      let held := fun (k : Nat) (v : Volser) (e : HomeEntry) => o.volser = some v ∧ s.entry k = some e ∧ e.volser = v
        ∧ (e.state = .home ∨ e.state = .out ∨ e.state = .retiring)
      let ofRecord := fun (id : ReqId) (m : MountRec) => o.queuedBy = .mount ∧ o.mountId = some id ∧ s.mount id = some m
        ∧ m.resultSent = .none ∧ m.failure = none ∧ m.originator ≠ s.addr ∧ s.lineRoom = true
      let result := fun (id : ReqId) (m : MountRec) (why : FailReason) (t : State) =>
        t.queueing (some m.originator) (.result id (.failed why) 0)
      let closes := fun (id : ReqId) (m : MountRec) (outcome : ClosedOutcome) (why : Option FailReason) (u : State) =>
        u.mnt.mounts = s.mnt.mounts.filter (fun x => x.id ≠ id)
        ∧ u.mnt.drives = (if m.driveHeld then s.mnt.drives.modify m.drive DriveRec.released else s.mnt.drives)
        ∧ (∃ a, u.acct.spool = s.acct.spool ++ [a] ∧ a.mountId = id ∧ a.outcome = outcome ∧ a.reason = why
          ∧ a.sequence = s.acct.counter)
        ∧ u.neg = s.neg ∧ u.host = s.host ∧ u.lane = s.lane
      let abandoned := fun (k : Nat) (v : Volser) (what : WearEvent) (t : State) =>
        let x := setWear k { s.wearOf k with stage := .due } t
        { x with wear := { x.wear with notices := s.wear.notices ++
          [.wear k v what (s.wearOf k).cause (s.wearOf k).lifetime (s.wearOf k).streak] } }
      let faults := r = .gripFault ∨ r = .armFault ∨ (r = .destOccupied ∧ (o.form ≠ .place ∨ o.dst = .cell))
        ∨ (r = .sourceEmpty ∧ o.form = .place) ∨ (r = .ok ∧ Phase.read ∈ o.phases ∧ ∀ l, sym = some l → l.length ≠ 8)
      (faults →
        (o.faultTaken = false → exec (.armCompletion n r sym) s = .next { s with seq := { s.seq with
            inArm := some { o with faultTaken := true }, arm := .fault
            notices := s.seq.notices ++ [.armFault o.number o.purpose o.form o.src o.dst o.mountId r false] } })
        ∧ (∀ k v e i, o.faultTaken = true → o.form ≠ .readOnly → o.queuedBy = .wear → o.mountId = none → o.src = .slot k →
          o.dst = .cell → o.srcPos = none → o.dstPos = some i → s.prm.waiters = [] → held k v e → s.homeOf v = some (k, e) →
          exec (.armCompletion n r sym) s = .next (abandoned k v .abandonedArm { s with
            dir := missing k e, prm := { s.prm with cells := s.prm.cells.set i .empty }
            seq := { s.seq with
              inArm := none, arm := .fault
              notices := s.seq.notices ++ [.armFault o.number o.purpose o.form o.src o.dst o.mountId r true] } }))
        ∧ ∀ j k v e id m, o.faultTaken = true → o.form ≠ .readOnly → o.src = .slot j →
          ((∃ d, o.dst = .drive d) ∨ ∃ i, o.dst = .cell ∧ o.dstPos = some i ∧ s.prm.waiters = []) → o.srcPos = none →
          held k v e → s.homeOf v = some (k, e) → ofRecord id m → m.reachedMounted = false → s.prm.prompts = [] →
          ∃ u, exec (.armCompletion n r sym) s = .next u ∧ closes id m .failed (some .arm) u ∧ u.dir = missing k e
            ∧ u.line = (result id m .arm s).line ∧ u.wear = s.wear
            ∧ u.prm.cells = (match o.dst, o.dstPos with
              | .cell, some i => s.prm.cells.set i .empty
              | _, _ => s.prm.cells)
            ∧ u.seq = { s.seq with
              inArm := none, arm := .fault, waiting := s.seq.waiting.filter fun w => w ≠ .sourceLocal id
              notices := s.seq.notices ++ [.armFault o.number o.purpose o.form o.src o.dst o.mountId r true] })
      ∧ (r = .ok → o.form = .pick →
        (∀ k h, o.src = .slot k → found h → goes (inHand (fun o => o) h s))
        ∧ (∀ d id k h v, o.src = .drive d → o.purpose = .returnLeg → (∃ j, o.dst = .slot j) → o.volser = some v → found h →
          o.mountId = some id → s.returnCheck v = some k →
          (∀ x, s.mnt.drives[d]? = some x → x.mountId = some id → goes (inHand (fun o => { o with dst := .slot k }) h { s with mnt := { s.mnt with
            drives := s.mnt.drives.modify d DriveRec.emptied
            mounts := updWhere (fun x => x.id = id) (fun m => { m with driveHeld := false }) s.mnt.mounts } }))
          ∧ ∀ y, s.mnt.drives[d]? = some y → y.mountId = none →
            goes (inHand (fun o => { o with dst := .slot k }) h { s with mnt := { s.mnt with
              drives := s.mnt.drives.modify d DriveRec.emptied
              mounts := updWhere (fun x => x.id = id) (fun m => { m with reelLeft := false }) s.mnt.mounts } }))
        ∧ (∀ d x h, o.src = .mouth d → o.purpose = .relay → found h → (s.side d).inbound = [x] →
          (s.peer (s.neighbour d)).presence = .up → (∀ g ∈ s.line.queue, g.body.kind ≠ .credit) → s.lineRoom = true →
          goes (inHand (fun o => o) h
            ((updSide d (fun y => { y with inbound := [], pickQueued := none }) s).queueing (some (s.neighbour d))
              (.credit d.opposite 1))))
        ∧ (∀ k d v w e id m i, o.src = .slot k → o.dst = .drive d → read (.mismatch w) → held k v e → ofRecord id m →
          freeCell i → goes (result id m .misfiled (toCell i (.wrongLabel w) { s with
            dir := missing k e
            mnt := { s.mnt with mounts := updWhere (fun x => x.id = id) (fun m => { m with
              failure := some (m.failure.getD .misfiled), resultSent := .failed, stage := .returning }) s.mnt.mounts } })))
        ∧ ∀ k d i, o.src = .slot k → o.dst = .drive d → read .unreadable → o.repeatUsed = true → o.queuedBy ≠ .negotiation →
          freeCell i → goes (toCell i .unreadable s))
      ∧ (r = .ok → o.form ≠ .place → read .unreadable → o.repeatUsed = false → exec (.armCompletion n r sym) s
        = .next { s with seq := { s.seq with
          inArm := some { o with repeatUsed := true }, repeatSent := true, ref := some (s.locPoint o.dst)
          sent := s.seq.sent ++ [.repeatRead n] } })
      ∧ (r = .ok → o.form = .place → Phase.read ∉ o.phases →
        let done := { s with seq := { s.seq with inArm := none, arm := .idle } }
        let homes := fun (k : Nat) (e : HomeEntry) (ring : Bool) => { s.dir with
          catalog := tablePut s.dir.catalog k { e with state := .home, mountId := none, ring := ring } }
        (∀ k v x e, o.dst = .slot k → o.ofMount = false → o.volser = some v → o.routing = some x → s.entry k = some e →
          e.volser = v → (e.state = .out ∨ e.state = .missing) → goes { done with
            dir := homes k e x.ring, wear := { s.wear with handovers := s.wear.handovers ++ [⟨k, v, x.counts⟩] } })
        ∧ (∀ k v e id m, o.dst = .slot k → o.queuedBy = .mount → o.mountId = some id → s.mount id = some m → o.volser = some v →
          o.routing = none → s.entry k = some e → e.volser = v → (e.state = .out ∨ e.state = .missing) → s.prm.prompts = [] →
          m.reachedMounted = true → m.cancelPending = false →
          ∃ u, exec (.armCompletion n r sym) s = .next u ∧ closes id m .dismounted m.failure u
            ∧ u.dir = homes k e (decide (m.ring ≠ .absent)) ∧ u.line = s.line
            ∧ u.wear = { s.wear with handovers := s.wear.handovers ++ [⟨k, v, m.counts⟩] })
        ∧ (∀ d id m x, o.dst = .drive d → o.cellUse = .none → ofRecord id m → m.drive = d → m.turningBack = false →
          s.mnt.drives[d]? = some x → x.state = .allocated → x.mountId = some id →
          goes ({ done with mnt := { s.mnt with
            drives := s.mnt.drives.modify d fun y => { y with state := .loading, aboard := .threaded }
            mounts := updWhere (fun x => x.id = id) (fun m => { m with
              loadWait := some s.timers.loadWait, stage := .loading }) s.mnt.mounts
            sent := s.mnt.sent ++ [LoadMessage.mk d m.volser m.write] } }.queueing (some m.originator) (.progress id)))
        ∧ (∀ d x, o.dst = .mouth d → o.ofMount = false → o.routing = some x → s.lineRoom = true →
          goes ((updSide d (fun y => { y with holders := dropFirst n y.holders, requests := dropFirst n y.requests }) done).queueing
            (some (s.neighbour d)) (.deposit { x with hops := min 30 (x.hops + 1) })))
        ∧ ∀ v i, o.dst = .cell → o.dstPos = some i → o.volser = some v →
          let posts := fun (p : Prompt) (t : State) => { t with prm := { s.prm with
            prompts := s.prm.prompts ++ [{ p with
              number := s.nextPrompt, cellPos := some i, posted := s.clock, timerStart := some s.clock }]
            counter := (s.nextPrompt + 1) % 256, cells := s.prm.cells.set i (.holding (.prompt s.nextPrompt) (some v)) } }
          (o.ofMount = false → o.cellUse = .remove → goes (posts (Prompt.blank .remove v) done))
          ∧ (∀ w, o.ofMount = false → o.cellUse = .wrongLabel w →
            goes (posts { Prompt.blank .misfile w with cause := some .wrongLabel, mountId := o.mountId } done))
          ∧ (o.ofMount = false → o.cellUse = .slotOccupied →
            goes (posts { Prompt.blank .misfile v with cause := some .slotOccupied, mountId := o.mountId } done))
          ∧ (∀ k, o.queuedBy = .wear → o.cellUse = .retire → o.mountId = none → o.src = .slot k →
            goes (setWear k { s.wearOf k with stage := .prompted } (posts { Prompt.blank .retire v with slot := some k } done)))
          ∧ (o.cellUse = .unreadable → goes (posts { Prompt.blank .unreadable v with mountId := o.mountId } done))
          ∧ ∀ id m, o.cellUse = .ring → ofRecord id m → m.turningBack = false → m.volser = v →
            goes (posts { Prompt.blank .ring v with drive := some m.drive, mountId := some id }
              ({ done with
                mnt := { s.mnt with mounts := updWhere (fun x => x.id = id) (fun m => { m with stage := .ring }) s.mnt.mounts }
                }.queueing (some m.originator) (.progress id))))
      ∧ (r = .destOccupied → o.form = .place →
        let back := fun f : ArmOrder → ArmOrder => { s.seq with inArm := some (f o), arm := .holding }
        (∀ k v e i, o.dst = .slot k → held k v e → freeCell i → goes { s with
          dir := missing k e, prm := { s.prm with cells := s.prm.cells.set i (.reserved (.order n)) }
          seq := back fun o => { o with
            dst := .cell, cellUse := .slotOccupied, routing := none, laneRetry := false, dstPos := some i
            waitingCell := false } })
        ∧ (∀ d, o.dst = .mouth d → goes { s with seq := back fun o => { o with laneRetry := true } })
        ∧ ∀ d id m x k, o.dst = .drive d → ofRecord id m → s.orderOf id = some o → o.diverted = false → m.drive = d →
          m.driveHeld = true → s.mnt.drives[d]? = some x → m.home = some s.addr → s.returnCheck m.volser = some k →
          goes (result id m .driveLost { s with
            seq := back fun o => { o with dst := .slot k, cellUse := .none, routing := none, laneRetry := false }
            mnt := { s.mnt with
              notices := s.mnt.notices ++ [.driveProtocol d .destOccupied (some x.state)]
              drives := s.mnt.drives.modify d DriveRec.released
              mounts := updWhere (fun x => x.id = id) (fun m => { m with
                failure := some (m.failure.getD .driveLost), resultSent := .failed, turningBack := true, stage := .returning
                driveHeld := false }) s.mnt.mounts } }))
      ∧ (r = .sourceEmpty → o.srcPos = none →
        (∀ k d v e id m, o.form = .pick → o.src = .slot k → o.dst = .drive d → held k v e → ofRecord id m →
          m.reachedMounted = false → s.prm.prompts = [] → ∃ u, exec (.armCompletion n r sym) s = .next u
            ∧ closes id m .failed (some .missing) u ∧ u.dir = missing k e ∧ u.line = (result id m .missing s).line
            ∧ u.wear = s.wear)
        ∧ (∀ k v e i, o.form = .pick → o.queuedBy = .wear → o.mountId = none → o.src = .slot k → o.dst = .cell →
          o.dstPos = some i → s.prm.waiters = [] → held k v e → goes (abandoned k v .abandonedEmpty { s with
            dir := missing k e, prm := { s.prm with cells := s.prm.cells.set i .empty }
            seq := { s.seq with inArm := none, arm := .idle } }))
        ∧ (∀ d k x, o.form = .pick → o.src = .mouth d → o.dst = .slot k → o.ofMount = false → (s.side d).inbound = [x] →
          (s.peer (s.neighbour d)).presence = .up → (∀ g ∈ s.line.queue, g.body.kind ≠ .credit) → s.lineRoom = true →
          goes ((postLane (.laneEmpty d x.volser x.mountId x.hops false)
              (updSide d (fun y => { y with inbound := [], pickQueued := none })
                { s with seq := { s.seq with inArm := none, arm := .idle } })).queueing (some (s.neighbour d))
            (.credit d.opposite 1)))
        ∧ ∀ k e, o.form = .readOnly → o.src = .slot k → o.dst = .slot k → s.entry k = some e → e.state = .home →
          s.seq.audit.next ≤ s.seq.audit.last → goes { s with
            seq := { s.seq with
              inArm := none, arm := .idle
              notices := s.seq.notices ++ [.auditResult k .isEmpty (some (e.volser, .missing)) none]
              audit := { s.seq.audit with read := s.seq.audit.read + 1, posted := s.seq.audit.posted + 1 } }
            dir := { s.dir with catalog := tablePut s.dir.catalog k { e with state := .missing } } })

/-- R127 to R129: the label of any well-formed volser, read from any rotation in either direction, is found by the search for that
volser, whatever the hint, and is accepted by an audit read. A reading is UNREADABLE exactly when none of its sixteen candidates is
valid. -/
def Obligations.LabelSearchFinds : Prop :=
  (∀ (v : Volser) (h : Hint) (c : Nat) (back : Bool), v.wellFormed = true → c < 8 →
    let label := [v.s1, v.s2, v.s3, v.s4, v.s5, v.s6, (v.s1 + v.s2 + v.s3 + v.s4 + v.s5 + v.s6) % 37,
      (v.s1 + 2 * v.s2 + 3 * v.s3 + 4 * v.s4 + 5 * v.s5 + 6 * v.s6) % 37]
    let reading := (List.range 8).map fun j => label.getD (if back then (c + 8 - j) % 8 else (j + 8 - c) % 8) 0
    (∃ g, labelSearch (some v) h reading = .found g ∧ candidateVolser reading g = v ∧ g.rotation < 8)
    ∧ ∃ w g, labelSearch none h reading = .accepted w g)
  ∧ ∀ (expected : Option Volser) (h : Hint) (reading : List Nat), labelSearch expected h reading = .unreadable
    ↔ ∀ c back, c < 8 → candidateValid reading ⟨c, back⟩ = false

/-- R91, R93 and R103. READY at a LOADING drive makes drive and record MOUNTED, with the ready time, and RESULT MOUNTED is queued for the
originator, here another station. LOAD FAILED there, and a load wait that ends, empty the drive: the record fails THREAD with its RESULT,
and its pick-back is queued, here to a home slot of this station. UNLOADED at a MOUNTED drive notes the counts and the unload time and
queues the pick-back, here with room for it in the order queue. R92: UNLOADED at an OFFLINE drive with a THREADED reel makes it LOOSE and
notes the counts and the unload time. READY and LOAD FAILED in a state other than LOADING, and UNLOADED in a state other than MOUNTED and
OFFLINE or in OFFLINE without a THREADED reel, get the notice DRIVE PROTOCOL and nothing else. When the load wait is due is the model's
choice (assumption 5). -/
def Obligations.DriveLinkEvents : Prop :=
  ∀ (s : State) (d : Nat) (c : Counts), s.settled = true → s.pins.resetHeld = false →
    let protocol := fun (i : Instr) (e : DriveEvent) => exec i s
      = .next { s with mnt := { s.mnt with notices := s.mnt.notices ++ [.driveProtocol d e ((s.mnt.drives[d]?).map (·.state))] } }
    ((∀ r, s.mnt.drives[d]? = some r → r.state ≠ .loading) → protocol (.ready d) .ready ∧ protocol (.loadFailed d) .loadFailed)
    ∧ ((∀ r, s.mnt.drives[d]? = some r → r.state ≠ .mounted ∧ (r.state = .offline → r.aboard ≠ .threaded)) →
      protocol (.unloaded d c) .unloaded)
    ∧ (∀ r id, s.mnt.drives[d]? = some r → r.state = .offline → r.aboard = .threaded → r.mountId = some id →
      exec (.unloaded d c) s = .next { s with mnt := { s.mnt with
        drives := s.mnt.drives.modify d fun r => { r with aboard := .loose }
        mounts := updWhere (fun x => x.id = id) (fun m => { m with
          counts := some c, unloadTime := some (m.unloadTime.getD s.clock) }) s.mnt.mounts } })
    ∧ ∀ r id m, s.mnt.drives[d]? = some r → r.mountId = some id → s.mount id = some m → m.drive = d →
      let back := { ArmOrder.offer .returnLeg true (.drive d) (.slot m.homeSlot) .mount with
        number := s.nextOrder, estimate := s.legEstimate (.drive d) (.slot m.homeSlot), mountId := some id
        volser := some m.volser }
      let emptied := fun (f : MountRec → MountRec) => { s with
        mnt := { s.mnt with
          drives := s.mnt.drives.modify d fun r => { r with state := .emptying, aboard := .loose }
          mounts := updWhere (fun x => x.id = id) f s.mnt.mounts }
        seq := { s.seq with queue := s.seq.queue ++ [back], counter := (s.nextOrder + 1) % 256 } }
      let lost := fun (i : Instr) => exec i s = .next (settle false ((emptied fun m => { m with
          stage := .returning, loadWait := none, failure := some (m.failure.getD .thread), resultSent := .failed }).queueing
        (some m.originator) (.result id (.failed .thread) 0)))
      (r.state = .loading → m.resultSent = .none → m.failure = none → m.originator ≠ s.addr → s.lineRoom = true →
        exec (.ready d) s = .next ({ s with mnt := { s.mnt with
            drives := s.mnt.drives.modify d fun r => { r with state := .mounted }
            mounts := updWhere (fun x => x.id = id) (fun m => { m with
              loadWait := none, readyTime := some s.clock, reachedMounted := true, stage := .mounted
              resultSent := .mounted }) s.mnt.mounts } }.queueing (some m.originator) (.result id .mounted (s.addr * 8 + d)))
        ∧ (m.home = some s.addr → s.orderRoom = true →
          lost (.loadFailed d) ∧ (m.stage = .loading → m.loadWait = some 0 → lost (.loadWaitExpiry id))))
      ∧ (r.state = .mounted → m.home = some s.addr → s.orderRoom = true →
        exec (.unloaded d c) s = .next (settle false (emptied fun m => { m with
          stage := .returning, loadWait := none, counts := some c, unloadTime := some (m.unloadTime.getD s.clock) })))

/-- R92 and R104. OFFLINE of a drive that serves no mount makes it OFFLINE; of a MOUNTED one it also notes the record's unload time. Of an
ALLOCATED one its record, here waiting for its reel from another station, fails DRIVE LOST, turns back and gives the drive up; of a
LOADING one its record fails DRIVE LOST, its load wait stopped, and goes on holding the drive; of an EMPTYING one nothing else. In each of
these a queued pick-back from the drive is removed, here one to a home slot, and one that waits with it; with none there is nothing to
remove. ONLINE makes an OFFLINE drive MOUNTED when its reel is THREADED; EMPTYING when it is LOOSE, its record RETURNING and the pick-back
queued, here to a home slot, the record being the one that holds the drive or, where the reel is that of another which does not hold it,
that other, which then holds it; and FREE when it has none, its record then holding no drive. OFFLINE of an OFFLINE drive and ONLINE of
any other get DRIVE PROTOCOL. R98: an arrival limit at 0 closes a record that waits for its reel, here from another station, as FAILED
TRANSIT; an expiry that is not due changes nothing. When the arrival limit is due a waiting pick-back's removal and whose a LOOSE reel is
are the model's choice (assumptions 5, 17, 29 and 69). -/
def Obligations.OfflineOnlineAndArrivalLimit : Prop :=
  (∀ (s : State) (d : Nat) (r : DriveRec), s.settled = true → s.pins.resetHeld = false → s.mnt.drives[d]? = some r →
    let sets := fun (i : Instr) (f : DriveRec → DriveRec) (mounts : List MountRec) => exec i s
      = .next { s with mnt := { s.mnt with drives := s.mnt.drives.modify d f, mounts := mounts } }
    let protocol := fun (i : Instr) (e : DriveEvent) => exec i s
      = .next { s with mnt := { s.mnt with notices := s.mnt.notices ++ [.driveProtocol d e (some r.state)] } }
    let each := fun (id : ReqId) (f : MountRec → MountRec) => updWhere (fun x : MountRec => x.id = id) f s.mnt.mounts
    let told := fun (m : MountRec) => m.resultSent = .none ∧ m.failure = none ∧ m.originator ≠ s.addr ∧ s.lineRoom = true
    let clear := dropPickBack d s
    let off := fun (mounts : List MountRec) => { clear with mnt := { s.mnt with
      drives := s.mnt.drives.modify d fun r => { r with state := .offline }, mounts := mounts } }
    let lost := fun (m : MountRec) (f : DriveRec → DriveRec) (mounts : List MountRec) => exec (.offline d) s
      = .next (settle false ({ clear with mnt := { s.mnt with drives := s.mnt.drives.modify d f, mounts := mounts } }.queueing
        (some m.originator) (.result m.id (.failed .driveLost) 0)))
    let back := fun (m : MountRec) => { ArmOrder.offer .returnLeg true (.drive d) (.slot m.homeSlot) .mount with
      number := s.nextOrder, estimate := s.legEstimate (.drive d) (.slot m.homeSlot), mountId := some m.id
      volser := some m.volser }
    let emptying := fun (m : MountRec) (f : DriveRec → DriveRec) (mounts : List MountRec) => exec (.online d) s
      = .next (settle false { s with
        mnt := { s.mnt with
          drives := s.mnt.drives.modify d fun r => { f r with state := .emptying, aboard := .loose }, mounts := mounts }
        seq := { s.seq with queue := s.seq.queue ++ [back m], counter := (s.nextOrder + 1) % 256 } })
    (r.state = .offline → protocol (.offline d) .offline)
    ∧ ((∀ q ∈ s.seq.queue, q.isPickBack d = false) → (∀ q p st, .order q p st ∈ s.seq.waiting → q.isPickBack d = false) → clear = s)
    ∧ (∀ o k, s.seq.queue.find? (ArmOrder.isPickBack d) = some o → s.seq.queue.find? (fun q => q.number = o.number) = some o →
      o.dst = .slot k → o.srcPos = none → clear = { s with seq := { s.seq with
          queue := s.seq.queue.filter fun q => q.number ≠ o.number
          waiting := s.seq.waiting.filter fun w => match w with
            | .order q _ _ => !q.isPickBack d
            | .laneHead _ | .sourceLocal _ => true } })
    ∧ (r.state ≠ .offline → r.mountId = none → exec (.offline d) s = .next (settle false (off s.mnt.mounts)))
    ∧ (∀ id m, r.state = .mounted → r.mountId = some id → s.mount id = some m → m.stage = .mounted →
      exec (.offline d) s = .next (settle false (off (each id fun x => { x with
        unloadTime := some (x.unloadTime.getD s.clock) }))))
    ∧ (∀ id m a, r.state = .allocated → r.mountId = some id → s.mount id = some m → m.drive = d → m.driveHeld = true →
      m.stage = .sourcing → m.home = some a → a ≠ s.addr → m.turningBack = false → told m →
      (∀ p ∈ s.prm.prompts, p.mountId = some id → p.answer = .none) →
      lost m (fun r => { r with state := .offline, mountId := none }) (each id fun m => { m with
        failure := some (m.failure.getD .driveLost), resultSent := .failed, turningBack := true, driveHeld := false }))
    ∧ (∀ id m, r.state = .loading → r.mountId = some id → s.mount id = some m → m.stage = .loading → told m →
      lost m (fun r => { r with state := .offline }) (each id fun m => { m with
        failure := some (m.failure.getD .driveLost), resultSent := .failed, loadWait := none }))
    ∧ (∀ id m, r.state = .emptying → r.mountId = some id → s.mount id = some m → m.stage = .returning →
      exec (.offline d) s = .next (settle false (off s.mnt.mounts)))
    ∧ (r.state ≠ .offline → protocol (.online d) .online)
    ∧ (r.state = .offline → r.aboard = .threaded → sets (.online d) (fun r => { r with state := .mounted }) s.mnt.mounts)
    ∧ (∀ m, r.state = .offline → r.aboard = .loose → s.mount m.id = some m → m.home = some s.addr →
      s.orders.any (ArmOrder.isPickBack d) = false → s.orderRoom = true →
      (s.leftOn d = none → r.mountId = some m.id → m.drive = d →
        emptying m (fun r => r) (each m.id fun m => { m with stage := .returning, loadWait := none }))
      ∧ (s.leftOn d = some m → emptying m (fun r => { r with mountId := some m.id })
        (updWhere (fun x => x.id = m.id)
          (fun x => { x with stage := .returning, loadWait := none, driveHeld := true, reelLeft := false })
          (match r.mountId with
            | some h => each h fun x => { x with driveHeld := false }
            | none => s.mnt.mounts))))
    ∧ (r.state = .offline → r.aboard = .loose → r.mountId = none → s.leftOn d = none →
      sets (.online d) (fun r => { r with state := .emptying }) s.mnt.mounts)
    ∧ (r.state = .offline → r.aboard = .none → r.mountId = none →
      sets (.online d) (fun r => { r with state := .free }) s.mnt.mounts)
    ∧ (∀ id, r.state = .offline → r.aboard = .none → r.mountId = some id →
      sets (.online d) (fun r => { r with state := .free, mountId := none })
        (each id fun m => { m with driveHeld := false })))
  ∧ ∀ (s : State) (id : ReqId) (m : MountRec), s.settled = true → s.pins.resetHeld = false → s.mount id = some m →
    ((m.stage ≠ .sourcing ∨ m.arrivalLimit ≠ some 0) → exec (.arrivalLimitExpiry id) s = .next s)
    ∧ ((m.stage ≠ .loading ∨ m.loadWait ≠ some 0) → exec (.loadWaitExpiry id) s = .next s)
    ∧ (m.stage = .sourcing → m.arrivalLimit = some 0 → m.resultSent = .none → m.failure = none → m.originator ≠ s.addr →
      m.reachedMounted = false → m.driveHeld = true → s.lineRoom = true → s.prm.prompts = [] →
      ∃ u, exec (.arrivalLimitExpiry id) s = .next u
        ∧ u.mnt.mounts = s.mnt.mounts.filter (fun x => x.id ≠ id)
        ∧ u.mnt.drives = s.mnt.drives.modify m.drive DriveRec.released
        ∧ (∃ a, u.acct.spool = s.acct.spool ++ [a] ∧ a.mountId = id ∧ a.outcome = .failed ∧ a.reason = some .transit
          ∧ a.charge = 0 ∧ a.sequence = s.acct.counter)
        ∧ u.line = (s.queueing (some m.originator) (.result id (.failed .transit) 0)).line ∧ u.neg = s.neg ∧ u.host = s.host
        ∧ u.dir = s.dir ∧ u.lane = s.lane ∧ u.wear = s.wear)

/-- R157, R158 and R160 to R162. With no prompt shown the keys do nothing. While the unconfirmed mark is set, DONE and CANNOT only clear
it. Confirmed, they end a MISFILE or REMOVE prompt and free its position, here with none waiting for it; DONE counts an operator action
for the record the prompt serves. DONE on a FETCH prompt takes the reel from its position: the pick with READ to the drive holds the
position, the record enters TO DRIVE with the manual flag, and PROGRESS is queued; CANNOT ends it, and its record closes NOT ON SHELF.
On a RING prompt DONE inserts the ring and queues the pick without READ to the drive; CANNOT fails the record NO RING, gives up its drive
and queues the pick home, here to a home slot of this station (R163). On an UNREADABLE prompt DONE queues the re-read: to the drive or,
for a record turning back, home; without a live record home to an OUT or MISSING entry, and for a volser not homed here the prompt becomes
REMOVE, as it does on CANNOT, which marks the entry MISSING and closes a live record UNREADABLE (R164). Either key on a RETIRE prompt makes
the entry RETIRED with the notice, the retirement over (R165, R178), and on an UNSERVED prompt ends it. PROMPT CLEARED is queued first for a
prompt that was ESCALATED. R160: with no room in the order queue the pick waits, and the prompt stays with its answer held. What the
re-reads carry is the model's choice (assumptions 18 and 35). NEXT shows the next prompt of the display order, and
after the last the first. -/
def Obligations.KeysAnswerTheShownPrompt : Prop :=
  (∀ s : State, s.settled = true → s.pins.resetHeld = false → s.prm.shown = none →
    exec .doneKey s = .next s ∧ exec .cannotKey s = .next s ∧ exec .nextKey s = .next s)
  ∧ (∀ (s : State) (p : Prompt), s.settled = true → s.pins.resetHeld = false → s.prm.shown = some p.number →
    s.prompt p.number = some p →
    let mark := { s with prm := { s.prm with unconfirmed := false } }
    (s.prm.unconfirmed = true → exec .doneKey s = .next mark ∧ exec .cannotKey s = .next mark)
    ∧ (∀ i, s.prm.unconfirmed = false → (p.kind = .misfile ∨ p.kind = .remove) → p.stage ≠ .escalated → p.cellPos = some i →
      s.prm.waiters = [] →
      let ends := fun (s : State) => settle true { s with prm := { s.prm with
        prompts := s.prm.prompts.filter fun q => q.number ≠ p.number, cells := s.prm.cells.set i .empty, browsing := false } }
      exec .cannotKey s = .next (ends s)
      ∧ exec .doneKey s = .next (ends (match p.mountId with
        | some id => updMount id (fun m => { m with operatorActions := min 3 (m.operatorActions + 1) }) s
        | none => s)))
    ∧ (s.prm.unconfirmed = false → p.noticeSent → s.host.state ≠ .conflict → s.line.waiting = [] → s.line.queue.length < 15 →
      let b := { s with prm := { s.prm with browsing := false } }
      let c := b.afterPrompt p
      let ended := fun t : State => { t with prm := { t.prm with
        prompts := s.prm.prompts.filter fun q => q.number ≠ p.number
        cells := match p.cellPos with
          | some i => s.prm.cells.set i .empty
          | none => s.prm.cells
        waiters := s.prm.waiters.filter fun w => w ≠ .prompt p.number } }
      let removes := fun t : State => { t with prm := { t.prm with
        prompts := updWhere (fun q => q.number = p.number) (fun q => q.asRemove s.clock) s.prm.prompts } }
      let done := fun t : State => exec .doneKey s = .next (settle true t)
      let cannot := fun t : State => exec .cannotKey s = .next (settle true t)
      let missing := match s.homeOf p.volser with
        | some (k, e) => if e.state = .home ∨ e.state = .out ∨ e.state = .retiring then
            { s.dir with catalog := tablePut s.dir.catalog k { e with state := .missing, mountId := none } } else s.dir
        | none => s.dir
      (p.kind = .unserved → p.cellPos = none → p.mountId = none → done (ended c) ∧ cannot (ended c))
      ∧ (∀ k i e, p.kind = .retire → p.slot = some k → p.cellPos = some i → p.mountId = none → s.prm.waiters = [] →
        s.entry k = some e → e.volser = p.volser → e.state = .retiring →
        let w := s.wearOf k
        let t := ended (setWear k { w with stage := .none, cause := none } c)
        let t := { t with
          dir := { s.dir with catalog := tablePut s.dir.catalog k { e with state := .retired } }
          wear := { t.wear with notices := s.wear.notices ++ [.wear k p.volser .retired w.cause w.lifetime w.streak] } }
        done t ∧ cannot t)
      ∧ (p.kind = .unreadable → (∀ id, p.mountId = some id → s.mount id = none) →
        cannot { removes c with dir := missing }
        ∧ (s.homeOf p.volser = none → done (removes c))
        ∧ ∀ k e i, s.homeOf p.volser = some (k, e) → (e.state = .out ∨ e.state = .missing) → p.cellPos = some i →
          s.orderRoom = true → done (c.takenFrom p i { ArmOrder.offer .returnLeg true .cell (.slot k) .negotiation with
            mountId := p.mountId, volser := some p.volser
            routing := some ⟨p.volser, p.mountId.getD ⟨0, 0⟩, .toHome, some s.addr, e.ring, e.pool, 0, none⟩ }))
      ∧ ∀ id m, p.mountId = some id → s.mount id = some m →
        let record := fun (f : MountRec → MountRec) (t : State) => { t with mnt := { t.mnt with
          mounts := updWhere (fun x => x.id = id) f t.mnt.mounts } }
        let counted := fun (f : MountRec → MountRec) (t : State) => record (fun m => f { m with
          operatorActions := min 3 (m.operatorActions + 1) }) t
        let toDrive := fun read : Bool => { ArmOrder.offer .mountLeg read .cell (.drive m.drive) .mount with
          cls := some m.cls, mountId := some id, volser := some m.volser }
        let goesHome := fun (read : Bool) (k : Nat) => { ArmOrder.offer .returnLeg read .cell (.slot k) .mount with
          mountId := some id, volser := some m.volser }
        let result := fun (why : FailReason) (t : State) => t.queueing (some m.originator) (.result id (.failed why) 0)
        let noRing := fun t : State => record (fun m => { m with
            failure := some (m.failure.getD .noRing), resultSent := .failed, turningBack := true, stage := .returning
            driveHeld := false })
          { t with mnt := { t.mnt with drives := s.mnt.drives.modify m.drive DriveRec.released } }
        let ringIn := fun m : MountRec => { m with ring := .inserted }
        let waits := fun (o : ArmOrder) (st : Option Stage) (a : Answered) (t : State) => { t with
          prm := { t.prm with prompts := updWhere (fun q => q.number = p.number) (fun q => { q with answer := a }) s.prm.prompts }
          seq := { s.seq with waiting := s.seq.waiting ++ [.order o (some p.number) st] } }
        (p.kind = .fetch → s.failsOpenly m → (p.cellPos ≠ none → s.prm.waiters = []) → s.prm.prompts = [p] →
          ∃ u, exec .cannotKey s = .next u ∧ s.failedClosed m .notOnShelf u ∧ s.lostPrompt p u
            ∧ u.line = (result .notOnShelf c).line ∧ u.dir = s.dir)
        ∧ (p.kind = .unreadable → s.failsOpenly m → s.prm.prompts = [p] →
          ∃ u, exec .cannotKey s = .next u ∧ s.failedClosed m .unreadable u ∧ u.prm.prompts = [p.asRemove s.clock]
            ∧ u.prm.cells = s.prm.cells ∧ u.prm.waiters = s.prm.waiters ∧ u.prm.postings = s.postingsWithout (some id)
            ∧ u.prm.remote = s.prm.remote ∧ u.line = (result .unreadable c).line ∧ u.dir = missing)
        ∧ ∀ i, p.cellPos = some i →
          (s.orderRoom = true →
            (p.kind = .ring → done (counted ringIn (c.takenFrom p i (toDrive false))))
            ∧ (p.kind = .unreadable → m.turningBack = false → m.stage ≠ .returning →
              done (counted (fun m => m) (c.takenFrom p i (toDrive true))))
            ∧ ∀ k, m.home = some s.addr → s.returnCheck m.volser = some k →
              (p.kind = .unreadable → (m.turningBack = true ∨ m.stage = .returning) →
                done (counted (fun m => m) (c.takenFrom p i (goesHome true k))))
              ∧ (p.kind = .ring → s.failsOpenly m → cannot (noRing (result .noRing (c.takenFrom p i (goesHome false k))))))
          ∧ (s.orderRoom = false → p.stage ≠ .escalated →
            (p.kind = .fetch → done (waits { toDrive true with srcPos := some i } (some .toDrive) .done
              (counted (fun m => { m with manual := true, ring := if p.ringWanted then .inserted else m.ring })
                { b with prm := { b.prm with
                  cells := s.prm.cells.set i (.holding (.prompt p.number) (some p.volser)) } })))
            ∧ (p.kind = .ring → done (waits { toDrive false with srcPos := some i } none .done (counted ringIn b)))
            ∧ (p.kind = .unreadable → m.turningBack = false → m.stage ≠ .returning →
              done (waits { toDrive true with srcPos := some i } none .done (counted (fun m => m) b)))
            ∧ ∀ k, p.kind = .ring → s.failsOpenly m → m.home = some s.addr → s.returnCheck m.volser = some k →
              cannot (waits { goesHome false k with srcPos := some i } none .cannot (noRing (result .noRing b)))))
    ∧ ∀ i id m, s.prm.unconfirmed = false → p.kind = .fetch → p.stage ≠ .escalated → p.cellPos = some i → p.mountId = some id →
      s.mount id = some m → m.resultSent = .none → m.failure = none → m.originator ≠ s.addr → s.orderRoom = true →
      s.lineRoom = true →
      let o := { ArmOrder.offer .mountLeg true .cell (.drive m.drive) .mount with
        number := s.nextOrder, estimate := s.legEstimate .cell (.drive m.drive), cls := some m.cls, mountId := some id
        volser := some m.volser, srcPos := some i }
      let t := { s with
        prm := { s.prm with
          prompts := s.prm.prompts.filter fun q => q.number ≠ p.number, browsing := false
          cells := s.prm.cells.set i (.holding (.order s.nextOrder) (some p.volser)) }
        seq := { s.seq with queue := s.seq.queue ++ [o], counter := (s.nextOrder + 1) % 256 }
        mnt := { s.mnt with mounts := updWhere (fun x => x.id = id) (fun m => { m with
          operatorActions := min 3 (m.operatorActions + 1), manual := true
          ring := if p.ringWanted then .inserted else m.ring, stage := .toDrive, reserved := none }) s.mnt.mounts } }
      exec .doneKey s = .next (settle true (t.queueing (some m.originator) (.progress id))))
  ∧ ∀ (s : State) (a : Nat) (pre : List Nat), s.settled = true → s.pins.resetHeld = false → s.prm.shown = some a → a ∉ pre →
    (∀ b rest, s.displayOrder.map (·.number) = pre ++ a :: b :: rest → exec .nextKey s
      = .next { s with prm := { s.prm with shown := some b, browsing := true, unconfirmed := false } })
    ∧ ∀ b rest, pre = b :: rest → s.displayOrder.map (·.number) = pre ++ [a] → exec .nextKey s
      = .next { s with prm := { s.prm with shown := some b, browsing := false, unconfirmed := false } }

/-- R120, R154, R156, R161 to R163, R167 and R168. The door switch is recorded always, and the arm then has its choice. A FETCH posting that
waits enters when fewer than 20 of its kinds are live, here with a position free for it, and waits until then. A reminder that is due
makes a QUEUED prompt REMINDED; an escalation that is due makes it ESCALATED and queues PROMPT NOTICE. A fetch expiry that is due ends the
prompt and closes its record FAILED FETCH TIMEOUT, in WAITING CELL too, where the prompt leaves the waiters; a ring expiry that is due
fails its record NO RING, and the record is RETURNING with its drive given up, its RETURN LEG pick, here to a home slot of this station,
queued with the prompt's position. PROMPT CLEARED is queued for a prompt that was ESCALATED. An expiry that is not due changes nothing. When
an expiry is due, and the line of waiting postings, are the model's choice (assumptions 5 and 10). -/
def Obligations.DoorAndPromptTimers : Prop :=
  (∀ (s : State) (b : Bool), exec (.doorSwitch b) s = .next (settle false { s with
    pins := { s.pins with doorOpen := b }, prm := { s.prm with doorOpen := b } }))
  ∧ (∀ s : State, s.settled = true → s.pins.resetHeld = false →
    ((20 ≤ s.openPrompts ∨ s.prm.postings = []) → exec .promptPostingEnters s = .next s)
    ∧ ∀ p rest i, s.prm.postings = p :: rest → s.openPrompts < 20 → p.kind = .fetch → s.prm.waiters = [] →
      s.emptyCell = some i → s.prm.prompts.length < 255 → exec .promptPostingEnters s = .next (settle false { s with
        prm := { s.prm with
          postings := rest, counter := (s.nextPrompt + 1) % 256, cells := s.prm.cells.set i (.reserved (.prompt s.nextPrompt))
          prompts := s.prm.prompts ++ [{ p with
            number := s.nextPrompt, posted := s.clock, timerStart := some s.clock, stage := .queued, answer := .none
            notice := .none, cellPos := some i }] } }))
  ∧ (∀ (s : State) (p : Prompt) (id : ReqId) (m : MountRec), s.settled = true → s.pins.resetHeld = false →
    s.prompt p.number = some p → p.answer = .none → p.mountId = some id → s.mount id = some m → s.failsOpenly m →
    p.noticeSent →
    let line := (s.afterPrompt p).queueing (some m.originator)
    (p.kind = .fetch → p.posted + s.timers.fetchExpiry ≤ s.clock → (p.cellPos ≠ none → s.prm.waiters = []) →
      s.prm.prompts = [p] → ∃ u, exec (.fetchExpiry p.number) s = .next u ∧ s.failedClosed m .fetchTimeout u
        ∧ s.lostPrompt p u ∧ u.line = (line (.result id (.failed .fetchTimeout) 0)).line ∧ u.dir = s.dir)
    ∧ ∀ i k, p.kind = .ring → p.posted + s.timers.ringExpiry ≤ s.clock → p.cellPos = some i → s.orderRoom = true →
      m.home = some s.addr → s.returnCheck m.volser = some k →
      let t := (line (.result id (.failed .noRing) 0)).takenFrom p i { ArmOrder.offer .returnLeg false .cell (.slot k) .mount with
        mountId := some id, volser := some m.volser }
      exec (.ringExpiry p.number) s = .next (settle false { t with mnt := { s.mnt with
        drives := s.mnt.drives.modify m.drive DriveRec.released
        mounts := updWhere (fun x => x.id = id) (fun m => { m with
          failure := some (m.failure.getD .noRing), resultSent := .failed, turningBack := true, stage := .returning
          driveHeld := false }) s.mnt.mounts } }))
  ∧ ∀ (s : State) (p : Prompt) (t : Nat), s.settled = true → s.pins.resetHeld = false → s.prompt p.number = some p →
    p.timerStart = some t → p.answer = .none →
    let n := p.number
    let stage := fun (f : Prompt → Prompt) => { s with prm := { s.prm with
      prompts := updWhere (fun q => q.number = n) f s.prm.prompts } }
    (p.stage = .queued → t + s.timers.reminder ≤ s.clock → s.timers.reminder < s.timers.escalation →
      exec (.promptReminder n) s = .next (settle false (stage fun p => { p with stage := .reminded })))
    ∧ ((p.stage ≠ .queued ∨ s.clock < t + s.timers.reminder) → exec (.promptReminder n) s = .next s)
    ∧ ((p.stage = .queued ∨ p.stage = .reminded) → t + s.timers.escalation ≤ s.clock → s.lineRoom = true →
      exec (.promptEscalation n) s
        = .next (settle false ((stage fun q => { q with stage := .escalated, notice := .sent }).queueing none
          (.promptNotice n p.kind p.volser))))
    ∧ (s.clock < t + s.timers.escalation → exec (.promptEscalation n) s = .next s)
    ∧ (s.clock < p.posted + s.timers.fetchExpiry → exec (.fetchExpiry n) s = .next s)
    ∧ (s.clock < p.posted + s.timers.ringExpiry → exec (.ringExpiry n) s = .next s)
    ∧ ∀ id m, p.mountId = some id → s.mount id = some m → m.resultSent = .none → m.failure = none → m.originator ≠ s.addr →
      m.reachedMounted = false → m.driveHeld = true → s.lineRoom = true → p.stage ≠ .escalated → s.prm.prompts = [p] →
      (p.kind = .fetch → p.posted + s.timers.fetchExpiry ≤ s.clock → ∃ u, exec (.fetchExpiry n) s = .next u
        ∧ u.prm.prompts = [] ∧ u.mnt.mounts = s.mnt.mounts.filter (fun x => x.id ≠ id)
        ∧ u.mnt.drives = s.mnt.drives.modify m.drive DriveRec.released
        ∧ (∃ a, u.acct.spool = s.acct.spool ++ [a] ∧ a.mountId = id ∧ a.outcome = .failed ∧ a.reason = some .fetchTimeout
          ∧ a.charge = 0)
        ∧ u.line = (s.queueing (some m.originator) (.result id (.failed .fetchTimeout) 0)).line ∧ u.neg = s.neg
        ∧ u.host = s.host ∧ u.dir = s.dir ∧ u.lane = s.lane ∧ u.wear = s.wear)
      ∧ (p.kind = .ring → p.posted + s.timers.ringExpiry ≤ s.clock → s.orderRoom = true →
        ∃ u, exec (.ringExpiry n) s = .next u ∧ u.prm.prompts = []
        ∧ u.mount id = some { m with
            failure := some .noRing, resultSent := .failed, turningBack := true, stage := .returning, driveHeld := false }
        ∧ (∀ x, x ≠ id → u.mount x = s.mount x) ∧ u.mnt.drives = s.mnt.drives.modify m.drive DriveRec.released
        ∧ u.line = (s.queueing (some m.originator) (.result id (.failed .noRing) 0)).line ∧ u.neg = s.neg ∧ u.host = s.host
        ∧ u.dir = s.dir ∧ u.wear = s.wear ∧ u.acct = s.acct)

/-- R172 to R176. A hand-over with counts adds its pass. A window left full by a hard error is tested before it, and a window that a pass
without a hard error fills is tested after it: the streak moves and the window starts again, with the notice SUSPECT for a suspect one. A
hand-over without counts moves no figures. A record then due for retirement, by a hard error, its streak or the pass limit, or DUE before,
with its slot HOME, is ORDERED out with the notice RETIRING: the entry becomes RETIRING, and the CELL pick is queued, here with room, and
asks for a position. One not due, or whose slot is not HOME, only keeps its figures and its stage. R171: for a slot whose entry is empty the
hand-over updates nothing. With none waiting nothing happens. The oldest of the line is taken, its volser is not compared with the entry's,
and one for a record ORDERED or PROMPTED is added all the same: the model's choice (assumptions 62 and 63). -/
def Obligations.WearHandOver : Prop :=
  (∀ s : State, s.settled = true → s.pins.resetHeld = false → s.wear.handovers = [] → exec .wearHandover s = .next s)
  ∧ (∀ (s : State) (h : Handover) (rest : List Handover), s.settled = true → s.pins.resetHeld = false →
    s.wear.handovers = h :: rest → s.entry h.slot = none →
    exec .wearHandover s = .next { s with wear := { s.wear with handovers := rest } })
  ∧ ∀ (s : State) (h : Handover) (rest : List Handover) (e : HomeEntry), s.settled = true → s.pins.resetHeld = false →
    s.wear.handovers = h :: rest → s.entry h.slot = some e →
    let w := s.wearOf h.slot
    let full := fun x : WearRec => s.settings.window ≤ x.passes
    let bad := fun x : WearRec => x.blocks ≠ 0 ∧ s.settings.threshold * x.blocks ≤ x.recoveries * 10000
    let tested := fun x : WearRec => if full x then { x with
      streak := if x.blocks = 0 then x.streak else if bad x then min 3 (x.streak + 1) else 0
      passes := 0, blocks := 0, recoveries := 0 } else x
    let told := fun x : WearRec => if full x ∧ bad x then
      [Notice.wear h.slot h.volser (.suspect x.blocks x.recoveries) none (tested x).lifetime (tested x).streak] else []
    let added := fun (c : Counts) (x : WearRec) => { x with
      lifetime := min 65535 (x.lifetime + 1), passes := x.passes + 1
      blocks := min 4294967295 (x.blocks + (c.blocksRead + c.blocksWritten))
      recoveries := min 65535 (x.recoveries + c.recoveries) }
    let after : WearRec × List Notice := match h.counts with
      | none => (w, [])
      | some c =>
        let x := added c (tested w)
        if c.hardError then (x, told w) else (tested x, told w ++ told x)
    let cause := if h.counts.map (·.hardError) = some true then some RetireCause.hardError
      else if s.settings.streak ≤ after.1.streak then some .streak
      else if s.settings.passLimit ≠ 0 ∧ s.settings.passLimit ≤ after.1.lifetime then some .passLimit else none
    let r := if w.stage = .none ∧ cause ≠ none then { after.1 with stage := .due, cause := cause } else after.1
    let monitor := fun (x : WearMonitor) (y : WearRec) (notices : List Notice) => { s with wear := x }.wearOf h.slot = y
      ∧ (∀ k, k ≠ h.slot → { s with wear := x }.wearOf k = s.wearOf k) ∧ x.handovers = rest
      ∧ x.notices = s.wear.notices ++ notices
    ((r.stage ≠ .due ∨ e.state ≠ .home) → ∃ x, monitor x r after.2 ∧ exec .wearHandover s = .next { s with wear := x })
    ∧ (r.stage = .due → e.state = .home → s.orderRoom = true → ∃ x,
      monitor x { r with stage := .ordered } (after.2 ++ [.wear h.slot e.volser .retiring r.cause r.lifetime r.streak])
      ∧ exec .wearHandover s = .next (settle false (askCell (.order s.nextOrder) { s with
        wear := x
        dir := { s.dir with catalog := tablePut s.dir.catalog h.slot { e with state := .retiring } }
        seq := { s.seq with
          counter := (s.nextOrder + 1) % 256
          queue := s.seq.queue ++ [{ ArmOrder.offer .cell false (.slot h.slot) .cell .wear with
            number := s.nextOrder, estimate := s.legEstimate (.slot h.slot) .cell, volser := some e.volser
            cellUse := .retire }] } })))

/-- R181, R182, R185 and R186: the closure of a mount spools one accounting record with the next station sequence, and charges its account.
DISMOUNTED is charged the class's base fee, the hold time's term rounded up, and the surcharges for hops, shelf fetch and ring; CANCELLED
the surcharges; FAILED nothing; all within 16,777,215, with the saturated flag beyond it. The record carries the ready and the unload time
that the mount has, each by itself (R187), and the account loses an open mount. -/
def Obligations.ClosureCharges : Prop :=
  ∀ (s : State) (m : MountRec),
    let extra := m.hops * s.settings.hopCharge + (if m.manual = true then s.settings.shelfCharge else 0)
      + (if m.ring = .inserted then s.settings.ringCharge else 0)
    ∃ a exact, (accountFor m s).acct.spool = s.acct.spool ++ [a] ∧ a.sequence = s.acct.counter
      ∧ (accountFor m s).acct.counter = (s.acct.counter + 1) % 65536
      ∧ a.charge = min exact 16777215 ∧ (a.saturated = true ↔ 16777215 < exact)
      ∧ (a.mountId = m.id ∧ a.volser = m.volser ∧ a.account = m.account ∧ a.cls = m.cls ∧ a.reason = m.failure
        ∧ a.hops = m.hops ∧ a.operatorActions = m.operatorActions ∧ a.counts = m.counts
        ∧ a.readyTime = m.readyTime ∧ a.unloadTime = m.unloadTime)
      ∧ (m.reachedMounted = true → m.cancelPending = false → a.outcome = .dismounted
        ∧ ∀ r u, m.readyTime = some r → m.unloadTime = some u →
          let rate := s.settings.rate m.cls
          ∃ time, exact = rate.fee + time + extra ∧ (u - r) * rate.time ≤ 60 * time ∧ 60 * time < (u - r) * rate.time + 60)
      ∧ (¬ (m.reachedMounted = true ∧ m.cancelPending = false) → m.failure = none →
        a.outcome = .cancelled ∧ exact = extra)
      ∧ (¬ (m.reachedMounted = true ∧ m.cancelPending = false) → m.failure ≠ none → a.outcome = .failed ∧ exact = 0)
      ∧ (accountFor m s).account m.account = (let b := s.account m.account
        { b with
          charge := min 4294967295 (b.charge + a.charge), saturated := b.saturated || decide (4294967295 < b.charge + a.charge)
          mounts := if a.outcome = .dismounted then min 65535 (b.mounts + 1) else b.mounts
          cancels := if a.outcome = .cancelled then min 65535 (b.cancels + 1) else b.cancels
          operatorActions := min 65535 (b.operatorActions + m.operatorActions), openMounts := b.openMounts - 1 })
      ∧ ∀ n, n ≠ m.account → (accountFor m s).account n = s.account n
end

