-- ==== Sys2Proof/Laws/State.lean ====
section
/-! SUPPORT. What each named update does to each field of the state: one lemma per field, true by rfl, so that no proof unfolds a
record update. -/

namespace Sys2Proof.Machine

@[simp] theorem pushReport_pending (r : Report) (s : State) : (pushReport r s).pending = s.pending := rfl
@[simp] theorem pushReport_pins (r : Report) (s : State) : (pushReport r s).pins = s.pins := rfl
@[simp] theorem pushReport_dir (r : Report) (s : State) : (pushReport r s).dir = s.dir := rfl
@[simp] theorem pushReport_line (r : Report) (s : State) : (pushReport r s).line = s.line := rfl
@[simp] theorem pushReport_neg (r : Report) (s : State) : (pushReport r s).neg = s.neg := rfl
@[simp] theorem pushReport_mnt (r : Report) (s : State) : (pushReport r s).mnt = s.mnt := rfl
@[simp] theorem pushReport_seq (r : Report) (s : State) : (pushReport r s).seq = s.seq := rfl
@[simp] theorem pushReport_lane (r : Report) (s : State) : (pushReport r s).lane = s.lane := rfl
@[simp] theorem pushReport_prm (r : Report) (s : State) : (pushReport r s).prm = s.prm := rfl
@[simp] theorem pushReport_wear (r : Report) (s : State) : (pushReport r s).wear = s.wear := rfl
@[simp] theorem pushReport_acct (r : Report) (s : State) : (pushReport r s).acct = s.acct := rfl
@[simp] theorem pushReport_host_state (r : Report) (s : State) : (pushReport r s).host.state = s.host.state := rfl
@[simp] theorem pushReport_host_straps (r : Report) (s : State) : (pushReport r s).host.straps = s.host.straps := rfl
@[simp] theorem pushReport_host_clock (r : Report) (s : State) : (pushReport r s).host.clock = s.host.clock := rfl
@[simp] theorem pushReport_host_clockRuns (r : Report) (s : State) : (pushReport r s).host.clockRuns = s.host.clockRuns := rfl
@[simp] theorem pushReport_host_settings (r : Report) (s : State) : (pushReport r s).host.settings = s.host.settings := rfl
@[simp] theorem pushReport_host_commands (r : Report) (s : State) : (pushReport r s).host.commands = s.host.commands := rfl
@[simp] theorem pushReport_host_reports (r : Report) (s : State) : (pushReport r s).host.reports = s.host.reports ++ [r] := rfl
@[simp] theorem pushReport_host_pointer (r : Report) (s : State) : (pushReport r s).host.pointer = s.host.pointer := rfl
@[simp] theorem pushReport_host_notices (r : Report) (s : State) : (pushReport r s).host.notices = s.host.notices := rfl
@[simp] theorem pushReport_host_lastWrite (r : Report) (s : State) : (pushReport r s).host.lastWrite = s.host.lastWrite := rfl
@[simp] theorem pushReport_host_lastRead (r : Report) (s : State) : (pushReport r s).host.lastRead = s.host.lastRead := rfl

@[simp] theorem postNeg_pending (n : Notice) (s : State) : (postNeg n s).pending = s.pending := rfl
@[simp] theorem postNeg_pins (n : Notice) (s : State) : (postNeg n s).pins = s.pins := rfl
@[simp] theorem postNeg_host (n : Notice) (s : State) : (postNeg n s).host = s.host := rfl
@[simp] theorem postNeg_dir (n : Notice) (s : State) : (postNeg n s).dir = s.dir := rfl
@[simp] theorem postNeg_line (n : Notice) (s : State) : (postNeg n s).line = s.line := rfl
@[simp] theorem postNeg_mnt (n : Notice) (s : State) : (postNeg n s).mnt = s.mnt := rfl
@[simp] theorem postNeg_seq (n : Notice) (s : State) : (postNeg n s).seq = s.seq := rfl
@[simp] theorem postNeg_lane (n : Notice) (s : State) : (postNeg n s).lane = s.lane := rfl
@[simp] theorem postNeg_prm (n : Notice) (s : State) : (postNeg n s).prm = s.prm := rfl
@[simp] theorem postNeg_wear (n : Notice) (s : State) : (postNeg n s).wear = s.wear := rfl
@[simp] theorem postNeg_acct (n : Notice) (s : State) : (postNeg n s).acct = s.acct := rfl
@[simp] theorem postNeg_neg_origins (n : Notice) (s : State) : (postNeg n s).neg.origins = s.neg.origins := rfl
@[simp] theorem postNeg_neg_bids (n : Notice) (s : State) : (postNeg n s).neg.bids = s.neg.bids := rfl
@[simp] theorem postNeg_neg_seqCounter (n : Notice) (s : State) : (postNeg n s).neg.seqCounter = s.neg.seqCounter := rfl
@[simp] theorem postNeg_neg_notices (n : Notice) (s : State) : (postNeg n s).neg.notices = s.neg.notices ++ [n] := rfl

@[simp] theorem postMount_pending (n : Notice) (s : State) : (postMount n s).pending = s.pending := rfl
@[simp] theorem postMount_pins (n : Notice) (s : State) : (postMount n s).pins = s.pins := rfl
@[simp] theorem postMount_host (n : Notice) (s : State) : (postMount n s).host = s.host := rfl
@[simp] theorem postMount_dir (n : Notice) (s : State) : (postMount n s).dir = s.dir := rfl
@[simp] theorem postMount_line (n : Notice) (s : State) : (postMount n s).line = s.line := rfl
@[simp] theorem postMount_neg (n : Notice) (s : State) : (postMount n s).neg = s.neg := rfl
@[simp] theorem postMount_seq (n : Notice) (s : State) : (postMount n s).seq = s.seq := rfl
@[simp] theorem postMount_lane (n : Notice) (s : State) : (postMount n s).lane = s.lane := rfl
@[simp] theorem postMount_prm (n : Notice) (s : State) : (postMount n s).prm = s.prm := rfl
@[simp] theorem postMount_wear (n : Notice) (s : State) : (postMount n s).wear = s.wear := rfl
@[simp] theorem postMount_acct (n : Notice) (s : State) : (postMount n s).acct = s.acct := rfl
@[simp] theorem postMount_mnt_drives (n : Notice) (s : State) : (postMount n s).mnt.drives = s.mnt.drives := rfl
@[simp] theorem postMount_mnt_mounts (n : Notice) (s : State) : (postMount n s).mnt.mounts = s.mnt.mounts := rfl
@[simp] theorem postMount_mnt_notices (n : Notice) (s : State) : (postMount n s).mnt.notices = s.mnt.notices ++ [n] := rfl
@[simp] theorem postMount_mnt_sent (n : Notice) (s : State) : (postMount n s).mnt.sent = s.mnt.sent := rfl

@[simp] theorem postSeq_pending (n : Notice) (s : State) : (postSeq n s).pending = s.pending := rfl
@[simp] theorem postSeq_pins (n : Notice) (s : State) : (postSeq n s).pins = s.pins := rfl
@[simp] theorem postSeq_host (n : Notice) (s : State) : (postSeq n s).host = s.host := rfl
@[simp] theorem postSeq_dir (n : Notice) (s : State) : (postSeq n s).dir = s.dir := rfl
@[simp] theorem postSeq_line (n : Notice) (s : State) : (postSeq n s).line = s.line := rfl
@[simp] theorem postSeq_neg (n : Notice) (s : State) : (postSeq n s).neg = s.neg := rfl
@[simp] theorem postSeq_mnt (n : Notice) (s : State) : (postSeq n s).mnt = s.mnt := rfl
@[simp] theorem postSeq_lane (n : Notice) (s : State) : (postSeq n s).lane = s.lane := rfl
@[simp] theorem postSeq_prm (n : Notice) (s : State) : (postSeq n s).prm = s.prm := rfl
@[simp] theorem postSeq_wear (n : Notice) (s : State) : (postSeq n s).wear = s.wear := rfl
@[simp] theorem postSeq_acct (n : Notice) (s : State) : (postSeq n s).acct = s.acct := rfl
@[simp] theorem postSeq_seq_queue (n : Notice) (s : State) : (postSeq n s).seq.queue = s.seq.queue := rfl
@[simp] theorem postSeq_seq_waiting (n : Notice) (s : State) : (postSeq n s).seq.waiting = s.seq.waiting := rfl
@[simp] theorem postSeq_seq_arm (n : Notice) (s : State) : (postSeq n s).seq.arm = s.seq.arm := rfl
@[simp] theorem postSeq_seq_inArm (n : Notice) (s : State) : (postSeq n s).seq.inArm = s.seq.inArm := rfl
@[simp] theorem postSeq_seq_repeatSent (n : Notice) (s : State) : (postSeq n s).seq.repeatSent = s.seq.repeatSent := rfl
@[simp] theorem postSeq_seq_counter (n : Notice) (s : State) : (postSeq n s).seq.counter = s.seq.counter := rfl
@[simp] theorem postSeq_seq_ref (n : Notice) (s : State) : (postSeq n s).seq.ref = s.seq.ref := rfl
@[simp] theorem postSeq_seq_hint (n : Notice) (s : State) : (postSeq n s).seq.hint = s.seq.hint := rfl
@[simp] theorem postSeq_seq_audit (n : Notice) (s : State) : (postSeq n s).seq.audit = s.seq.audit := rfl
@[simp] theorem postSeq_seq_notices (n : Notice) (s : State) : (postSeq n s).seq.notices = s.seq.notices ++ [n] := rfl
@[simp] theorem postSeq_seq_sent (n : Notice) (s : State) : (postSeq n s).seq.sent = s.seq.sent := rfl

@[simp] theorem postLane_pending (n : Notice) (s : State) : (postLane n s).pending = s.pending := rfl
@[simp] theorem postLane_pins (n : Notice) (s : State) : (postLane n s).pins = s.pins := rfl
@[simp] theorem postLane_host (n : Notice) (s : State) : (postLane n s).host = s.host := rfl
@[simp] theorem postLane_dir (n : Notice) (s : State) : (postLane n s).dir = s.dir := rfl
@[simp] theorem postLane_line (n : Notice) (s : State) : (postLane n s).line = s.line := rfl
@[simp] theorem postLane_neg (n : Notice) (s : State) : (postLane n s).neg = s.neg := rfl
@[simp] theorem postLane_mnt (n : Notice) (s : State) : (postLane n s).mnt = s.mnt := rfl
@[simp] theorem postLane_seq (n : Notice) (s : State) : (postLane n s).seq = s.seq := rfl
@[simp] theorem postLane_prm (n : Notice) (s : State) : (postLane n s).prm = s.prm := rfl
@[simp] theorem postLane_wear (n : Notice) (s : State) : (postLane n s).wear = s.wear := rfl
@[simp] theorem postLane_acct (n : Notice) (s : State) : (postLane n s).acct = s.acct := rfl
@[simp] theorem postLane_lane_west (n : Notice) (s : State) : (postLane n s).lane.west = s.lane.west := rfl
@[simp] theorem postLane_lane_east (n : Notice) (s : State) : (postLane n s).lane.east = s.lane.east := rfl
@[simp] theorem postLane_lane_notices (n : Notice) (s : State) : (postLane n s).lane.notices = s.lane.notices ++ [n] := rfl

@[simp] theorem postWear_pending (n : Notice) (s : State) : (postWear n s).pending = s.pending := rfl
@[simp] theorem postWear_pins (n : Notice) (s : State) : (postWear n s).pins = s.pins := rfl
@[simp] theorem postWear_host (n : Notice) (s : State) : (postWear n s).host = s.host := rfl
@[simp] theorem postWear_dir (n : Notice) (s : State) : (postWear n s).dir = s.dir := rfl
@[simp] theorem postWear_line (n : Notice) (s : State) : (postWear n s).line = s.line := rfl
@[simp] theorem postWear_neg (n : Notice) (s : State) : (postWear n s).neg = s.neg := rfl
@[simp] theorem postWear_mnt (n : Notice) (s : State) : (postWear n s).mnt = s.mnt := rfl
@[simp] theorem postWear_seq (n : Notice) (s : State) : (postWear n s).seq = s.seq := rfl
@[simp] theorem postWear_lane (n : Notice) (s : State) : (postWear n s).lane = s.lane := rfl
@[simp] theorem postWear_prm (n : Notice) (s : State) : (postWear n s).prm = s.prm := rfl
@[simp] theorem postWear_acct (n : Notice) (s : State) : (postWear n s).acct = s.acct := rfl
@[simp] theorem postWear_wear_records (n : Notice) (s : State) : (postWear n s).wear.records = s.wear.records := rfl
@[simp] theorem postWear_wear_handovers (n : Notice) (s : State) : (postWear n s).wear.handovers = s.wear.handovers := rfl
@[simp] theorem postWear_wear_notices (n : Notice) (s : State) : (postWear n s).wear.notices = s.wear.notices ++ [n] := rfl

@[simp] theorem postAcct_pending (n : Notice) (s : State) : (postAcct n s).pending = s.pending := rfl
@[simp] theorem postAcct_pins (n : Notice) (s : State) : (postAcct n s).pins = s.pins := rfl
@[simp] theorem postAcct_host (n : Notice) (s : State) : (postAcct n s).host = s.host := rfl
@[simp] theorem postAcct_dir (n : Notice) (s : State) : (postAcct n s).dir = s.dir := rfl
@[simp] theorem postAcct_line (n : Notice) (s : State) : (postAcct n s).line = s.line := rfl
@[simp] theorem postAcct_neg (n : Notice) (s : State) : (postAcct n s).neg = s.neg := rfl
@[simp] theorem postAcct_mnt (n : Notice) (s : State) : (postAcct n s).mnt = s.mnt := rfl
@[simp] theorem postAcct_seq (n : Notice) (s : State) : (postAcct n s).seq = s.seq := rfl
@[simp] theorem postAcct_lane (n : Notice) (s : State) : (postAcct n s).lane = s.lane := rfl
@[simp] theorem postAcct_prm (n : Notice) (s : State) : (postAcct n s).prm = s.prm := rfl
@[simp] theorem postAcct_wear (n : Notice) (s : State) : (postAcct n s).wear = s.wear := rfl
@[simp] theorem postAcct_acct_accounts (n : Notice) (s : State) : (postAcct n s).acct.accounts = s.acct.accounts := rfl
@[simp] theorem postAcct_acct_spool (n : Notice) (s : State) : (postAcct n s).acct.spool = s.acct.spool := rfl
@[simp] theorem postAcct_acct_spoolState (n : Notice) (s : State) : (postAcct n s).acct.spoolState = s.acct.spoolState := rfl
@[simp] theorem postAcct_acct_counter (n : Notice) (s : State) : (postAcct n s).acct.counter = s.acct.counter := rfl
@[simp] theorem postAcct_acct_notices (n : Notice) (s : State) : (postAcct n s).acct.notices = s.acct.notices ++ [n] := rfl

@[simp] theorem postHost_pending (n : Notice) (s : State) : (postHost n s).pending = s.pending := rfl
@[simp] theorem postHost_pins (n : Notice) (s : State) : (postHost n s).pins = s.pins := rfl
@[simp] theorem postHost_dir (n : Notice) (s : State) : (postHost n s).dir = s.dir := rfl
@[simp] theorem postHost_line (n : Notice) (s : State) : (postHost n s).line = s.line := rfl
@[simp] theorem postHost_neg (n : Notice) (s : State) : (postHost n s).neg = s.neg := rfl
@[simp] theorem postHost_mnt (n : Notice) (s : State) : (postHost n s).mnt = s.mnt := rfl
@[simp] theorem postHost_seq (n : Notice) (s : State) : (postHost n s).seq = s.seq := rfl
@[simp] theorem postHost_lane (n : Notice) (s : State) : (postHost n s).lane = s.lane := rfl
@[simp] theorem postHost_prm (n : Notice) (s : State) : (postHost n s).prm = s.prm := rfl
@[simp] theorem postHost_wear (n : Notice) (s : State) : (postHost n s).wear = s.wear := rfl
@[simp] theorem postHost_acct (n : Notice) (s : State) : (postHost n s).acct = s.acct := rfl
@[simp] theorem postHost_host_state (n : Notice) (s : State) : (postHost n s).host.state = s.host.state := rfl
@[simp] theorem postHost_host_straps (n : Notice) (s : State) : (postHost n s).host.straps = s.host.straps := rfl
@[simp] theorem postHost_host_clock (n : Notice) (s : State) : (postHost n s).host.clock = s.host.clock := rfl
@[simp] theorem postHost_host_clockRuns (n : Notice) (s : State) : (postHost n s).host.clockRuns = s.host.clockRuns := rfl
@[simp] theorem postHost_host_settings (n : Notice) (s : State) : (postHost n s).host.settings = s.host.settings := rfl
@[simp] theorem postHost_host_commands (n : Notice) (s : State) : (postHost n s).host.commands = s.host.commands := rfl
@[simp] theorem postHost_host_reports (n : Notice) (s : State) : (postHost n s).host.reports = s.host.reports := rfl
@[simp] theorem postHost_host_pointer (n : Notice) (s : State) : (postHost n s).host.pointer = s.host.pointer := rfl
@[simp] theorem postHost_host_notices (n : Notice) (s : State) : (postHost n s).host.notices = s.host.notices ++ [n] := rfl
@[simp] theorem postHost_host_lastWrite (n : Notice) (s : State) : (postHost n s).host.lastWrite = s.host.lastWrite := rfl
@[simp] theorem postHost_host_lastRead (n : Notice) (s : State) : (postHost n s).host.lastRead = s.host.lastRead := rfl

@[simp] theorem updOrigin_pending (id : ReqId) (f : OriginRec → OriginRec) (s : State) : (updOrigin id f s).pending = s.pending := rfl
@[simp] theorem updOrigin_pins (id : ReqId) (f : OriginRec → OriginRec) (s : State) : (updOrigin id f s).pins = s.pins := rfl
@[simp] theorem updOrigin_host (id : ReqId) (f : OriginRec → OriginRec) (s : State) : (updOrigin id f s).host = s.host := rfl
@[simp] theorem updOrigin_dir (id : ReqId) (f : OriginRec → OriginRec) (s : State) : (updOrigin id f s).dir = s.dir := rfl
@[simp] theorem updOrigin_line (id : ReqId) (f : OriginRec → OriginRec) (s : State) : (updOrigin id f s).line = s.line := rfl
@[simp] theorem updOrigin_mnt (id : ReqId) (f : OriginRec → OriginRec) (s : State) : (updOrigin id f s).mnt = s.mnt := rfl
@[simp] theorem updOrigin_seq (id : ReqId) (f : OriginRec → OriginRec) (s : State) : (updOrigin id f s).seq = s.seq := rfl
@[simp] theorem updOrigin_lane (id : ReqId) (f : OriginRec → OriginRec) (s : State) : (updOrigin id f s).lane = s.lane := rfl
@[simp] theorem updOrigin_prm (id : ReqId) (f : OriginRec → OriginRec) (s : State) : (updOrigin id f s).prm = s.prm := rfl
@[simp] theorem updOrigin_wear (id : ReqId) (f : OriginRec → OriginRec) (s : State) : (updOrigin id f s).wear = s.wear := rfl
@[simp] theorem updOrigin_acct (id : ReqId) (f : OriginRec → OriginRec) (s : State) : (updOrigin id f s).acct = s.acct := rfl
@[simp] theorem updOrigin_neg_origins (id : ReqId) (f : OriginRec → OriginRec) (s : State) : (updOrigin id f s).neg.origins = updWhere (fun o => o.id = id) f s.neg.origins := rfl
@[simp] theorem updOrigin_neg_bids (id : ReqId) (f : OriginRec → OriginRec) (s : State) : (updOrigin id f s).neg.bids = s.neg.bids := rfl
@[simp] theorem updOrigin_neg_seqCounter (id : ReqId) (f : OriginRec → OriginRec) (s : State) : (updOrigin id f s).neg.seqCounter = s.neg.seqCounter := rfl
@[simp] theorem updOrigin_neg_notices (id : ReqId) (f : OriginRec → OriginRec) (s : State) : (updOrigin id f s).neg.notices = s.neg.notices := rfl

@[simp] theorem sweepOrigins_pending (s : State) : (sweepOrigins s).pending = s.pending := rfl
@[simp] theorem sweepOrigins_pins (s : State) : (sweepOrigins s).pins = s.pins := rfl
@[simp] theorem sweepOrigins_host (s : State) : (sweepOrigins s).host = s.host := rfl
@[simp] theorem sweepOrigins_dir (s : State) : (sweepOrigins s).dir = s.dir := rfl
@[simp] theorem sweepOrigins_line (s : State) : (sweepOrigins s).line = s.line := rfl
@[simp] theorem sweepOrigins_mnt (s : State) : (sweepOrigins s).mnt = s.mnt := rfl
@[simp] theorem sweepOrigins_seq (s : State) : (sweepOrigins s).seq = s.seq := rfl
@[simp] theorem sweepOrigins_lane (s : State) : (sweepOrigins s).lane = s.lane := rfl
@[simp] theorem sweepOrigins_prm (s : State) : (sweepOrigins s).prm = s.prm := rfl
@[simp] theorem sweepOrigins_wear (s : State) : (sweepOrigins s).wear = s.wear := rfl
@[simp] theorem sweepOrigins_acct (s : State) : (sweepOrigins s).acct = s.acct := rfl
@[simp] theorem sweepOrigins_neg_origins (s : State) : (sweepOrigins s).neg.origins = s.neg.origins.filter fun o => o.ended.isNone || o.noticeWaits || o.promptWaits := rfl
@[simp] theorem sweepOrigins_neg_bids (s : State) : (sweepOrigins s).neg.bids = s.neg.bids := rfl
@[simp] theorem sweepOrigins_neg_seqCounter (s : State) : (sweepOrigins s).neg.seqCounter = s.neg.seqCounter := rfl
@[simp] theorem sweepOrigins_neg_notices (s : State) : (sweepOrigins s).neg.notices = s.neg.notices := rfl

@[simp] theorem dropBid_pending (id : ReqId) (s : State) : (dropBid id s).pending = s.pending := rfl
@[simp] theorem dropBid_pins (id : ReqId) (s : State) : (dropBid id s).pins = s.pins := rfl
@[simp] theorem dropBid_host (id : ReqId) (s : State) : (dropBid id s).host = s.host := rfl
@[simp] theorem dropBid_dir (id : ReqId) (s : State) : (dropBid id s).dir = s.dir := rfl
@[simp] theorem dropBid_line (id : ReqId) (s : State) : (dropBid id s).line = s.line := rfl
@[simp] theorem dropBid_mnt (id : ReqId) (s : State) : (dropBid id s).mnt = s.mnt := rfl
@[simp] theorem dropBid_seq (id : ReqId) (s : State) : (dropBid id s).seq = s.seq := rfl
@[simp] theorem dropBid_lane (id : ReqId) (s : State) : (dropBid id s).lane = s.lane := rfl
@[simp] theorem dropBid_prm (id : ReqId) (s : State) : (dropBid id s).prm = s.prm := rfl
@[simp] theorem dropBid_wear (id : ReqId) (s : State) : (dropBid id s).wear = s.wear := rfl
@[simp] theorem dropBid_acct (id : ReqId) (s : State) : (dropBid id s).acct = s.acct := rfl
@[simp] theorem dropBid_neg_origins (id : ReqId) (s : State) : (dropBid id s).neg.origins = s.neg.origins := rfl
@[simp] theorem dropBid_neg_bids (id : ReqId) (s : State) : (dropBid id s).neg.bids = s.neg.bids.filter fun b => b.id != id := rfl
@[simp] theorem dropBid_neg_seqCounter (id : ReqId) (s : State) : (dropBid id s).neg.seqCounter = s.neg.seqCounter := rfl
@[simp] theorem dropBid_neg_notices (id : ReqId) (s : State) : (dropBid id s).neg.notices = s.neg.notices := rfl

@[simp] theorem recordBid_pending (id : ReqId) (s : State) : (recordBid id s).pending = s.pending := rfl
@[simp] theorem recordBid_pins (id : ReqId) (s : State) : (recordBid id s).pins = s.pins := rfl
@[simp] theorem recordBid_host (id : ReqId) (s : State) : (recordBid id s).host = s.host := rfl
@[simp] theorem recordBid_dir (id : ReqId) (s : State) : (recordBid id s).dir = s.dir := rfl
@[simp] theorem recordBid_line (id : ReqId) (s : State) : (recordBid id s).line = s.line := rfl
@[simp] theorem recordBid_mnt (id : ReqId) (s : State) : (recordBid id s).mnt = s.mnt := rfl
@[simp] theorem recordBid_seq (id : ReqId) (s : State) : (recordBid id s).seq = s.seq := rfl
@[simp] theorem recordBid_lane (id : ReqId) (s : State) : (recordBid id s).lane = s.lane := rfl
@[simp] theorem recordBid_prm (id : ReqId) (s : State) : (recordBid id s).prm = s.prm := rfl
@[simp] theorem recordBid_wear (id : ReqId) (s : State) : (recordBid id s).wear = s.wear := rfl
@[simp] theorem recordBid_acct (id : ReqId) (s : State) : (recordBid id s).acct = s.acct := rfl
@[simp] theorem recordBid_neg_origins (id : ReqId) (s : State) : (recordBid id s).neg.origins = s.neg.origins := rfl
@[simp] theorem recordBid_neg_bids (id : ReqId) (s : State) : (recordBid id s).neg.bids = s.neg.bids.filter (fun b => b.id != id) ++ [⟨id, s.timers.bidWindow + s.timers.awardAnswer⟩] := rfl
@[simp] theorem recordBid_neg_seqCounter (id : ReqId) (s : State) : (recordBid id s).neg.seqCounter = s.neg.seqCounter := rfl
@[simp] theorem recordBid_neg_notices (id : ReqId) (s : State) : (recordBid id s).neg.notices = s.neg.notices := rfl

@[simp] theorem updDrive_pending (d : Nat) (f : DriveRec → DriveRec) (s : State) : (updDrive d f s).pending = s.pending := rfl
@[simp] theorem updDrive_pins (d : Nat) (f : DriveRec → DriveRec) (s : State) : (updDrive d f s).pins = s.pins := rfl
@[simp] theorem updDrive_host (d : Nat) (f : DriveRec → DriveRec) (s : State) : (updDrive d f s).host = s.host := rfl
@[simp] theorem updDrive_dir (d : Nat) (f : DriveRec → DriveRec) (s : State) : (updDrive d f s).dir = s.dir := rfl
@[simp] theorem updDrive_line (d : Nat) (f : DriveRec → DriveRec) (s : State) : (updDrive d f s).line = s.line := rfl
@[simp] theorem updDrive_neg (d : Nat) (f : DriveRec → DriveRec) (s : State) : (updDrive d f s).neg = s.neg := rfl
@[simp] theorem updDrive_seq (d : Nat) (f : DriveRec → DriveRec) (s : State) : (updDrive d f s).seq = s.seq := rfl
@[simp] theorem updDrive_lane (d : Nat) (f : DriveRec → DriveRec) (s : State) : (updDrive d f s).lane = s.lane := rfl
@[simp] theorem updDrive_prm (d : Nat) (f : DriveRec → DriveRec) (s : State) : (updDrive d f s).prm = s.prm := rfl
@[simp] theorem updDrive_wear (d : Nat) (f : DriveRec → DriveRec) (s : State) : (updDrive d f s).wear = s.wear := rfl
@[simp] theorem updDrive_acct (d : Nat) (f : DriveRec → DriveRec) (s : State) : (updDrive d f s).acct = s.acct := rfl
@[simp] theorem updDrive_mnt_drives (d : Nat) (f : DriveRec → DriveRec) (s : State) : (updDrive d f s).mnt.drives = s.mnt.drives.modify d f := rfl
@[simp] theorem updDrive_mnt_mounts (d : Nat) (f : DriveRec → DriveRec) (s : State) : (updDrive d f s).mnt.mounts = s.mnt.mounts := rfl
@[simp] theorem updDrive_mnt_notices (d : Nat) (f : DriveRec → DriveRec) (s : State) : (updDrive d f s).mnt.notices = s.mnt.notices := rfl
@[simp] theorem updDrive_mnt_sent (d : Nat) (f : DriveRec → DriveRec) (s : State) : (updDrive d f s).mnt.sent = s.mnt.sent := rfl

@[simp] theorem updMount_pending (id : ReqId) (f : MountRec → MountRec) (s : State) : (updMount id f s).pending = s.pending := rfl
@[simp] theorem updMount_pins (id : ReqId) (f : MountRec → MountRec) (s : State) : (updMount id f s).pins = s.pins := rfl
@[simp] theorem updMount_host (id : ReqId) (f : MountRec → MountRec) (s : State) : (updMount id f s).host = s.host := rfl
@[simp] theorem updMount_dir (id : ReqId) (f : MountRec → MountRec) (s : State) : (updMount id f s).dir = s.dir := rfl
@[simp] theorem updMount_line (id : ReqId) (f : MountRec → MountRec) (s : State) : (updMount id f s).line = s.line := rfl
@[simp] theorem updMount_neg (id : ReqId) (f : MountRec → MountRec) (s : State) : (updMount id f s).neg = s.neg := rfl
@[simp] theorem updMount_seq (id : ReqId) (f : MountRec → MountRec) (s : State) : (updMount id f s).seq = s.seq := rfl
@[simp] theorem updMount_lane (id : ReqId) (f : MountRec → MountRec) (s : State) : (updMount id f s).lane = s.lane := rfl
@[simp] theorem updMount_prm (id : ReqId) (f : MountRec → MountRec) (s : State) : (updMount id f s).prm = s.prm := rfl
@[simp] theorem updMount_wear (id : ReqId) (f : MountRec → MountRec) (s : State) : (updMount id f s).wear = s.wear := rfl
@[simp] theorem updMount_acct (id : ReqId) (f : MountRec → MountRec) (s : State) : (updMount id f s).acct = s.acct := rfl
@[simp] theorem updMount_mnt_drives (id : ReqId) (f : MountRec → MountRec) (s : State) : (updMount id f s).mnt.drives = s.mnt.drives := rfl
@[simp] theorem updMount_mnt_mounts (id : ReqId) (f : MountRec → MountRec) (s : State) : (updMount id f s).mnt.mounts = updWhere (fun m => m.id = id) f s.mnt.mounts := rfl
@[simp] theorem updMount_mnt_notices (id : ReqId) (f : MountRec → MountRec) (s : State) : (updMount id f s).mnt.notices = s.mnt.notices := rfl
@[simp] theorem updMount_mnt_sent (id : ReqId) (f : MountRec → MountRec) (s : State) : (updMount id f s).mnt.sent = s.mnt.sent := rfl

@[simp] theorem dropMount_pending (id : ReqId) (s : State) : (dropMount id s).pending = s.pending := rfl
@[simp] theorem dropMount_pins (id : ReqId) (s : State) : (dropMount id s).pins = s.pins := rfl
@[simp] theorem dropMount_host (id : ReqId) (s : State) : (dropMount id s).host = s.host := rfl
@[simp] theorem dropMount_dir (id : ReqId) (s : State) : (dropMount id s).dir = s.dir := rfl
@[simp] theorem dropMount_line (id : ReqId) (s : State) : (dropMount id s).line = s.line := rfl
@[simp] theorem dropMount_neg (id : ReqId) (s : State) : (dropMount id s).neg = s.neg := rfl
@[simp] theorem dropMount_seq (id : ReqId) (s : State) : (dropMount id s).seq = s.seq := rfl
@[simp] theorem dropMount_lane (id : ReqId) (s : State) : (dropMount id s).lane = s.lane := rfl
@[simp] theorem dropMount_prm (id : ReqId) (s : State) : (dropMount id s).prm = s.prm := rfl
@[simp] theorem dropMount_wear (id : ReqId) (s : State) : (dropMount id s).wear = s.wear := rfl
@[simp] theorem dropMount_acct (id : ReqId) (s : State) : (dropMount id s).acct = s.acct := rfl
@[simp] theorem dropMount_mnt_drives (id : ReqId) (s : State) : (dropMount id s).mnt.drives = s.mnt.drives := rfl
@[simp] theorem dropMount_mnt_mounts (id : ReqId) (s : State) : (dropMount id s).mnt.mounts = s.mnt.mounts.filter fun m => m.id != id := rfl
@[simp] theorem dropMount_mnt_notices (id : ReqId) (s : State) : (dropMount id s).mnt.notices = s.mnt.notices := rfl
@[simp] theorem dropMount_mnt_sent (id : ReqId) (s : State) : (dropMount id s).mnt.sent = s.mnt.sent := rfl

@[simp] theorem sendLoad_pending (m : LoadMessage) (s : State) : (sendLoad m s).pending = s.pending := rfl
@[simp] theorem sendLoad_pins (m : LoadMessage) (s : State) : (sendLoad m s).pins = s.pins := rfl
@[simp] theorem sendLoad_host (m : LoadMessage) (s : State) : (sendLoad m s).host = s.host := rfl
@[simp] theorem sendLoad_dir (m : LoadMessage) (s : State) : (sendLoad m s).dir = s.dir := rfl
@[simp] theorem sendLoad_line (m : LoadMessage) (s : State) : (sendLoad m s).line = s.line := rfl
@[simp] theorem sendLoad_neg (m : LoadMessage) (s : State) : (sendLoad m s).neg = s.neg := rfl
@[simp] theorem sendLoad_seq (m : LoadMessage) (s : State) : (sendLoad m s).seq = s.seq := rfl
@[simp] theorem sendLoad_lane (m : LoadMessage) (s : State) : (sendLoad m s).lane = s.lane := rfl
@[simp] theorem sendLoad_prm (m : LoadMessage) (s : State) : (sendLoad m s).prm = s.prm := rfl
@[simp] theorem sendLoad_wear (m : LoadMessage) (s : State) : (sendLoad m s).wear = s.wear := rfl
@[simp] theorem sendLoad_acct (m : LoadMessage) (s : State) : (sendLoad m s).acct = s.acct := rfl
@[simp] theorem sendLoad_mnt_drives (m : LoadMessage) (s : State) : (sendLoad m s).mnt.drives = s.mnt.drives := rfl
@[simp] theorem sendLoad_mnt_mounts (m : LoadMessage) (s : State) : (sendLoad m s).mnt.mounts = s.mnt.mounts := rfl
@[simp] theorem sendLoad_mnt_notices (m : LoadMessage) (s : State) : (sendLoad m s).mnt.notices = s.mnt.notices := rfl
@[simp] theorem sendLoad_mnt_sent (m : LoadMessage) (s : State) : (sendLoad m s).mnt.sent = s.mnt.sent ++ [m] := rfl

@[simp] theorem updOrder_pending (n : Nat) (f : ArmOrder → ArmOrder) (s : State) : (updOrder n f s).pending = s.pending := rfl
@[simp] theorem updOrder_pins (n : Nat) (f : ArmOrder → ArmOrder) (s : State) : (updOrder n f s).pins = s.pins := rfl
@[simp] theorem updOrder_host (n : Nat) (f : ArmOrder → ArmOrder) (s : State) : (updOrder n f s).host = s.host := rfl
@[simp] theorem updOrder_dir (n : Nat) (f : ArmOrder → ArmOrder) (s : State) : (updOrder n f s).dir = s.dir := rfl
@[simp] theorem updOrder_line (n : Nat) (f : ArmOrder → ArmOrder) (s : State) : (updOrder n f s).line = s.line := rfl
@[simp] theorem updOrder_neg (n : Nat) (f : ArmOrder → ArmOrder) (s : State) : (updOrder n f s).neg = s.neg := rfl
@[simp] theorem updOrder_mnt (n : Nat) (f : ArmOrder → ArmOrder) (s : State) : (updOrder n f s).mnt = s.mnt := rfl
@[simp] theorem updOrder_lane (n : Nat) (f : ArmOrder → ArmOrder) (s : State) : (updOrder n f s).lane = s.lane := rfl
@[simp] theorem updOrder_prm (n : Nat) (f : ArmOrder → ArmOrder) (s : State) : (updOrder n f s).prm = s.prm := rfl
@[simp] theorem updOrder_wear (n : Nat) (f : ArmOrder → ArmOrder) (s : State) : (updOrder n f s).wear = s.wear := rfl
@[simp] theorem updOrder_acct (n : Nat) (f : ArmOrder → ArmOrder) (s : State) : (updOrder n f s).acct = s.acct := rfl
@[simp] theorem updOrder_seq_queue (n : Nat) (f : ArmOrder → ArmOrder) (s : State) : (updOrder n f s).seq.queue = updWhere (fun o => o.number = n) f s.seq.queue := rfl
@[simp] theorem updOrder_seq_waiting (n : Nat) (f : ArmOrder → ArmOrder) (s : State) : (updOrder n f s).seq.waiting = s.seq.waiting := rfl
@[simp] theorem updOrder_seq_arm (n : Nat) (f : ArmOrder → ArmOrder) (s : State) : (updOrder n f s).seq.arm = s.seq.arm := rfl
@[simp] theorem updOrder_seq_inArm (n : Nat) (f : ArmOrder → ArmOrder) (s : State) : (updOrder n f s).seq.inArm = s.seq.inArm.map fun o => if o.number = n then f o else o := rfl
@[simp] theorem updOrder_seq_repeatSent (n : Nat) (f : ArmOrder → ArmOrder) (s : State) : (updOrder n f s).seq.repeatSent = s.seq.repeatSent := rfl
@[simp] theorem updOrder_seq_counter (n : Nat) (f : ArmOrder → ArmOrder) (s : State) : (updOrder n f s).seq.counter = s.seq.counter := rfl
@[simp] theorem updOrder_seq_ref (n : Nat) (f : ArmOrder → ArmOrder) (s : State) : (updOrder n f s).seq.ref = s.seq.ref := rfl
@[simp] theorem updOrder_seq_hint (n : Nat) (f : ArmOrder → ArmOrder) (s : State) : (updOrder n f s).seq.hint = s.seq.hint := rfl
@[simp] theorem updOrder_seq_audit (n : Nat) (f : ArmOrder → ArmOrder) (s : State) : (updOrder n f s).seq.audit = s.seq.audit := rfl
@[simp] theorem updOrder_seq_notices (n : Nat) (f : ArmOrder → ArmOrder) (s : State) : (updOrder n f s).seq.notices = s.seq.notices := rfl
@[simp] theorem updOrder_seq_sent (n : Nat) (f : ArmOrder → ArmOrder) (s : State) : (updOrder n f s).seq.sent = s.seq.sent := rfl

@[simp] theorem sendArm_pending (m : ArmMessage) (s : State) : (sendArm m s).pending = s.pending := rfl
@[simp] theorem sendArm_pins (m : ArmMessage) (s : State) : (sendArm m s).pins = s.pins := rfl
@[simp] theorem sendArm_host (m : ArmMessage) (s : State) : (sendArm m s).host = s.host := rfl
@[simp] theorem sendArm_dir (m : ArmMessage) (s : State) : (sendArm m s).dir = s.dir := rfl
@[simp] theorem sendArm_line (m : ArmMessage) (s : State) : (sendArm m s).line = s.line := rfl
@[simp] theorem sendArm_neg (m : ArmMessage) (s : State) : (sendArm m s).neg = s.neg := rfl
@[simp] theorem sendArm_mnt (m : ArmMessage) (s : State) : (sendArm m s).mnt = s.mnt := rfl
@[simp] theorem sendArm_lane (m : ArmMessage) (s : State) : (sendArm m s).lane = s.lane := rfl
@[simp] theorem sendArm_prm (m : ArmMessage) (s : State) : (sendArm m s).prm = s.prm := rfl
@[simp] theorem sendArm_wear (m : ArmMessage) (s : State) : (sendArm m s).wear = s.wear := rfl
@[simp] theorem sendArm_acct (m : ArmMessage) (s : State) : (sendArm m s).acct = s.acct := rfl
@[simp] theorem sendArm_seq_queue (m : ArmMessage) (s : State) : (sendArm m s).seq.queue = s.seq.queue := rfl
@[simp] theorem sendArm_seq_waiting (m : ArmMessage) (s : State) : (sendArm m s).seq.waiting = s.seq.waiting := rfl
@[simp] theorem sendArm_seq_arm (m : ArmMessage) (s : State) : (sendArm m s).seq.arm = s.seq.arm := rfl
@[simp] theorem sendArm_seq_inArm (m : ArmMessage) (s : State) : (sendArm m s).seq.inArm = s.seq.inArm := rfl
@[simp] theorem sendArm_seq_repeatSent (m : ArmMessage) (s : State) : (sendArm m s).seq.repeatSent = s.seq.repeatSent := rfl
@[simp] theorem sendArm_seq_counter (m : ArmMessage) (s : State) : (sendArm m s).seq.counter = s.seq.counter := rfl
@[simp] theorem sendArm_seq_ref (m : ArmMessage) (s : State) : (sendArm m s).seq.ref = s.seq.ref := rfl
@[simp] theorem sendArm_seq_hint (m : ArmMessage) (s : State) : (sendArm m s).seq.hint = s.seq.hint := rfl
@[simp] theorem sendArm_seq_audit (m : ArmMessage) (s : State) : (sendArm m s).seq.audit = s.seq.audit := rfl
@[simp] theorem sendArm_seq_notices (m : ArmMessage) (s : State) : (sendArm m s).seq.notices = s.seq.notices := rfl
@[simp] theorem sendArm_seq_sent (m : ArmMessage) (s : State) : (sendArm m s).seq.sent = s.seq.sent ++ [m] := rfl

@[simp] theorem waitOffer_pending (w : WaitingOffer) (s : State) : (waitOffer w s).pending = s.pending := rfl
@[simp] theorem waitOffer_pins (w : WaitingOffer) (s : State) : (waitOffer w s).pins = s.pins := rfl
@[simp] theorem waitOffer_host (w : WaitingOffer) (s : State) : (waitOffer w s).host = s.host := rfl
@[simp] theorem waitOffer_dir (w : WaitingOffer) (s : State) : (waitOffer w s).dir = s.dir := rfl
@[simp] theorem waitOffer_line (w : WaitingOffer) (s : State) : (waitOffer w s).line = s.line := rfl
@[simp] theorem waitOffer_neg (w : WaitingOffer) (s : State) : (waitOffer w s).neg = s.neg := rfl
@[simp] theorem waitOffer_mnt (w : WaitingOffer) (s : State) : (waitOffer w s).mnt = s.mnt := rfl
@[simp] theorem waitOffer_lane (w : WaitingOffer) (s : State) : (waitOffer w s).lane = s.lane := rfl
@[simp] theorem waitOffer_prm (w : WaitingOffer) (s : State) : (waitOffer w s).prm = s.prm := rfl
@[simp] theorem waitOffer_wear (w : WaitingOffer) (s : State) : (waitOffer w s).wear = s.wear := rfl
@[simp] theorem waitOffer_acct (w : WaitingOffer) (s : State) : (waitOffer w s).acct = s.acct := rfl
@[simp] theorem waitOffer_seq_queue (w : WaitingOffer) (s : State) : (waitOffer w s).seq.queue = s.seq.queue := rfl
@[simp] theorem waitOffer_seq_waiting (w : WaitingOffer) (s : State) : (waitOffer w s).seq.waiting = s.seq.waiting ++ [w] := rfl
@[simp] theorem waitOffer_seq_arm (w : WaitingOffer) (s : State) : (waitOffer w s).seq.arm = s.seq.arm := rfl
@[simp] theorem waitOffer_seq_inArm (w : WaitingOffer) (s : State) : (waitOffer w s).seq.inArm = s.seq.inArm := rfl
@[simp] theorem waitOffer_seq_repeatSent (w : WaitingOffer) (s : State) : (waitOffer w s).seq.repeatSent = s.seq.repeatSent := rfl
@[simp] theorem waitOffer_seq_counter (w : WaitingOffer) (s : State) : (waitOffer w s).seq.counter = s.seq.counter := rfl
@[simp] theorem waitOffer_seq_ref (w : WaitingOffer) (s : State) : (waitOffer w s).seq.ref = s.seq.ref := rfl
@[simp] theorem waitOffer_seq_hint (w : WaitingOffer) (s : State) : (waitOffer w s).seq.hint = s.seq.hint := rfl
@[simp] theorem waitOffer_seq_audit (w : WaitingOffer) (s : State) : (waitOffer w s).seq.audit = s.seq.audit := rfl
@[simp] theorem waitOffer_seq_notices (w : WaitingOffer) (s : State) : (waitOffer w s).seq.notices = s.seq.notices := rfl
@[simp] theorem waitOffer_seq_sent (w : WaitingOffer) (s : State) : (waitOffer w s).seq.sent = s.seq.sent := rfl

@[simp] theorem leaveArm_pending (a : ArmState) (s : State) : (leaveArm a s).pending = s.pending := rfl
@[simp] theorem leaveArm_pins (a : ArmState) (s : State) : (leaveArm a s).pins = s.pins := rfl
@[simp] theorem leaveArm_host (a : ArmState) (s : State) : (leaveArm a s).host = s.host := rfl
@[simp] theorem leaveArm_dir (a : ArmState) (s : State) : (leaveArm a s).dir = s.dir := rfl
@[simp] theorem leaveArm_line (a : ArmState) (s : State) : (leaveArm a s).line = s.line := rfl
@[simp] theorem leaveArm_neg (a : ArmState) (s : State) : (leaveArm a s).neg = s.neg := rfl
@[simp] theorem leaveArm_mnt (a : ArmState) (s : State) : (leaveArm a s).mnt = s.mnt := rfl
@[simp] theorem leaveArm_lane (a : ArmState) (s : State) : (leaveArm a s).lane = s.lane := rfl
@[simp] theorem leaveArm_prm (a : ArmState) (s : State) : (leaveArm a s).prm = s.prm := rfl
@[simp] theorem leaveArm_wear (a : ArmState) (s : State) : (leaveArm a s).wear = s.wear := rfl
@[simp] theorem leaveArm_acct (a : ArmState) (s : State) : (leaveArm a s).acct = s.acct := rfl
@[simp] theorem leaveArm_seq_queue (a : ArmState) (s : State) : (leaveArm a s).seq.queue = s.seq.queue := rfl
@[simp] theorem leaveArm_seq_waiting (a : ArmState) (s : State) : (leaveArm a s).seq.waiting = s.seq.waiting := rfl
@[simp] theorem leaveArm_seq_arm (a : ArmState) (s : State) : (leaveArm a s).seq.arm = a := rfl
@[simp] theorem leaveArm_seq_inArm (a : ArmState) (s : State) : (leaveArm a s).seq.inArm = none := rfl
@[simp] theorem leaveArm_seq_repeatSent (a : ArmState) (s : State) : (leaveArm a s).seq.repeatSent = s.seq.repeatSent := rfl
@[simp] theorem leaveArm_seq_counter (a : ArmState) (s : State) : (leaveArm a s).seq.counter = s.seq.counter := rfl
@[simp] theorem leaveArm_seq_ref (a : ArmState) (s : State) : (leaveArm a s).seq.ref = s.seq.ref := rfl
@[simp] theorem leaveArm_seq_hint (a : ArmState) (s : State) : (leaveArm a s).seq.hint = s.seq.hint := rfl
@[simp] theorem leaveArm_seq_audit (a : ArmState) (s : State) : (leaveArm a s).seq.audit = s.seq.audit := rfl
@[simp] theorem leaveArm_seq_notices (a : ArmState) (s : State) : (leaveArm a s).seq.notices = s.seq.notices := rfl
@[simp] theorem leaveArm_seq_sent (a : ArmState) (s : State) : (leaveArm a s).seq.sent = s.seq.sent := rfl

@[simp] theorem setInArm_pending (o : ArmOrder) (a : ArmState) (s : State) : (setInArm o a s).pending = s.pending := rfl
@[simp] theorem setInArm_pins (o : ArmOrder) (a : ArmState) (s : State) : (setInArm o a s).pins = s.pins := rfl
@[simp] theorem setInArm_host (o : ArmOrder) (a : ArmState) (s : State) : (setInArm o a s).host = s.host := rfl
@[simp] theorem setInArm_dir (o : ArmOrder) (a : ArmState) (s : State) : (setInArm o a s).dir = s.dir := rfl
@[simp] theorem setInArm_line (o : ArmOrder) (a : ArmState) (s : State) : (setInArm o a s).line = s.line := rfl
@[simp] theorem setInArm_neg (o : ArmOrder) (a : ArmState) (s : State) : (setInArm o a s).neg = s.neg := rfl
@[simp] theorem setInArm_mnt (o : ArmOrder) (a : ArmState) (s : State) : (setInArm o a s).mnt = s.mnt := rfl
@[simp] theorem setInArm_lane (o : ArmOrder) (a : ArmState) (s : State) : (setInArm o a s).lane = s.lane := rfl
@[simp] theorem setInArm_prm (o : ArmOrder) (a : ArmState) (s : State) : (setInArm o a s).prm = s.prm := rfl
@[simp] theorem setInArm_wear (o : ArmOrder) (a : ArmState) (s : State) : (setInArm o a s).wear = s.wear := rfl
@[simp] theorem setInArm_acct (o : ArmOrder) (a : ArmState) (s : State) : (setInArm o a s).acct = s.acct := rfl
@[simp] theorem setInArm_seq_queue (o : ArmOrder) (a : ArmState) (s : State) : (setInArm o a s).seq.queue = s.seq.queue := rfl
@[simp] theorem setInArm_seq_waiting (o : ArmOrder) (a : ArmState) (s : State) : (setInArm o a s).seq.waiting = s.seq.waiting := rfl
@[simp] theorem setInArm_seq_arm (o : ArmOrder) (a : ArmState) (s : State) : (setInArm o a s).seq.arm = a := rfl
@[simp] theorem setInArm_seq_inArm (o : ArmOrder) (a : ArmState) (s : State) : (setInArm o a s).seq.inArm = some o := rfl
@[simp] theorem setInArm_seq_repeatSent (o : ArmOrder) (a : ArmState) (s : State) : (setInArm o a s).seq.repeatSent = s.seq.repeatSent := rfl
@[simp] theorem setInArm_seq_counter (o : ArmOrder) (a : ArmState) (s : State) : (setInArm o a s).seq.counter = s.seq.counter := rfl
@[simp] theorem setInArm_seq_ref (o : ArmOrder) (a : ArmState) (s : State) : (setInArm o a s).seq.ref = s.seq.ref := rfl
@[simp] theorem setInArm_seq_hint (o : ArmOrder) (a : ArmState) (s : State) : (setInArm o a s).seq.hint = s.seq.hint := rfl
@[simp] theorem setInArm_seq_audit (o : ArmOrder) (a : ArmState) (s : State) : (setInArm o a s).seq.audit = s.seq.audit := rfl
@[simp] theorem setInArm_seq_notices (o : ArmOrder) (a : ArmState) (s : State) : (setInArm o a s).seq.notices = s.seq.notices := rfl
@[simp] theorem setInArm_seq_sent (o : ArmOrder) (a : ArmState) (s : State) : (setInArm o a s).seq.sent = s.seq.sent := rfl

@[simp] theorem setHint_pending (h : Hint) (s : State) : (setHint h s).pending = s.pending := rfl
@[simp] theorem setHint_pins (h : Hint) (s : State) : (setHint h s).pins = s.pins := rfl
@[simp] theorem setHint_host (h : Hint) (s : State) : (setHint h s).host = s.host := rfl
@[simp] theorem setHint_dir (h : Hint) (s : State) : (setHint h s).dir = s.dir := rfl
@[simp] theorem setHint_line (h : Hint) (s : State) : (setHint h s).line = s.line := rfl
@[simp] theorem setHint_neg (h : Hint) (s : State) : (setHint h s).neg = s.neg := rfl
@[simp] theorem setHint_mnt (h : Hint) (s : State) : (setHint h s).mnt = s.mnt := rfl
@[simp] theorem setHint_lane (h : Hint) (s : State) : (setHint h s).lane = s.lane := rfl
@[simp] theorem setHint_prm (h : Hint) (s : State) : (setHint h s).prm = s.prm := rfl
@[simp] theorem setHint_wear (h : Hint) (s : State) : (setHint h s).wear = s.wear := rfl
@[simp] theorem setHint_acct (h : Hint) (s : State) : (setHint h s).acct = s.acct := rfl
@[simp] theorem setHint_seq_queue (h : Hint) (s : State) : (setHint h s).seq.queue = s.seq.queue := rfl
@[simp] theorem setHint_seq_waiting (h : Hint) (s : State) : (setHint h s).seq.waiting = s.seq.waiting := rfl
@[simp] theorem setHint_seq_arm (h : Hint) (s : State) : (setHint h s).seq.arm = s.seq.arm := rfl
@[simp] theorem setHint_seq_inArm (h : Hint) (s : State) : (setHint h s).seq.inArm = s.seq.inArm := rfl
@[simp] theorem setHint_seq_repeatSent (h : Hint) (s : State) : (setHint h s).seq.repeatSent = s.seq.repeatSent := rfl
@[simp] theorem setHint_seq_counter (h : Hint) (s : State) : (setHint h s).seq.counter = s.seq.counter := rfl
@[simp] theorem setHint_seq_ref (h : Hint) (s : State) : (setHint h s).seq.ref = s.seq.ref := rfl
@[simp] theorem setHint_seq_hint (h : Hint) (s : State) : (setHint h s).seq.hint = h := rfl
@[simp] theorem setHint_seq_audit (h : Hint) (s : State) : (setHint h s).seq.audit = s.seq.audit := rfl
@[simp] theorem setHint_seq_notices (h : Hint) (s : State) : (setHint h s).seq.notices = s.seq.notices := rfl
@[simp] theorem setHint_seq_sent (h : Hint) (s : State) : (setHint h s).seq.sent = s.seq.sent := rfl

@[simp] theorem updAudit_pending (f : AuditCursor → AuditCursor) (s : State) : (updAudit f s).pending = s.pending := rfl
@[simp] theorem updAudit_pins (f : AuditCursor → AuditCursor) (s : State) : (updAudit f s).pins = s.pins := rfl
@[simp] theorem updAudit_host (f : AuditCursor → AuditCursor) (s : State) : (updAudit f s).host = s.host := rfl
@[simp] theorem updAudit_dir (f : AuditCursor → AuditCursor) (s : State) : (updAudit f s).dir = s.dir := rfl
@[simp] theorem updAudit_line (f : AuditCursor → AuditCursor) (s : State) : (updAudit f s).line = s.line := rfl
@[simp] theorem updAudit_neg (f : AuditCursor → AuditCursor) (s : State) : (updAudit f s).neg = s.neg := rfl
@[simp] theorem updAudit_mnt (f : AuditCursor → AuditCursor) (s : State) : (updAudit f s).mnt = s.mnt := rfl
@[simp] theorem updAudit_lane (f : AuditCursor → AuditCursor) (s : State) : (updAudit f s).lane = s.lane := rfl
@[simp] theorem updAudit_prm (f : AuditCursor → AuditCursor) (s : State) : (updAudit f s).prm = s.prm := rfl
@[simp] theorem updAudit_wear (f : AuditCursor → AuditCursor) (s : State) : (updAudit f s).wear = s.wear := rfl
@[simp] theorem updAudit_acct (f : AuditCursor → AuditCursor) (s : State) : (updAudit f s).acct = s.acct := rfl
@[simp] theorem updAudit_seq_queue (f : AuditCursor → AuditCursor) (s : State) : (updAudit f s).seq.queue = s.seq.queue := rfl
@[simp] theorem updAudit_seq_waiting (f : AuditCursor → AuditCursor) (s : State) : (updAudit f s).seq.waiting = s.seq.waiting := rfl
@[simp] theorem updAudit_seq_arm (f : AuditCursor → AuditCursor) (s : State) : (updAudit f s).seq.arm = s.seq.arm := rfl
@[simp] theorem updAudit_seq_inArm (f : AuditCursor → AuditCursor) (s : State) : (updAudit f s).seq.inArm = s.seq.inArm := rfl
@[simp] theorem updAudit_seq_repeatSent (f : AuditCursor → AuditCursor) (s : State) : (updAudit f s).seq.repeatSent = s.seq.repeatSent := rfl
@[simp] theorem updAudit_seq_counter (f : AuditCursor → AuditCursor) (s : State) : (updAudit f s).seq.counter = s.seq.counter := rfl
@[simp] theorem updAudit_seq_ref (f : AuditCursor → AuditCursor) (s : State) : (updAudit f s).seq.ref = s.seq.ref := rfl
@[simp] theorem updAudit_seq_hint (f : AuditCursor → AuditCursor) (s : State) : (updAudit f s).seq.hint = s.seq.hint := rfl
@[simp] theorem updAudit_seq_audit (f : AuditCursor → AuditCursor) (s : State) : (updAudit f s).seq.audit = f s.seq.audit := rfl
@[simp] theorem updAudit_seq_notices (f : AuditCursor → AuditCursor) (s : State) : (updAudit f s).seq.notices = s.seq.notices := rfl
@[simp] theorem updAudit_seq_sent (f : AuditCursor → AuditCursor) (s : State) : (updAudit f s).seq.sent = s.seq.sent := rfl

@[simp] theorem dropOffer_pending (w : WaitingOffer) (s : State) : (dropOffer w s).pending = s.pending := rfl
@[simp] theorem dropOffer_pins (w : WaitingOffer) (s : State) : (dropOffer w s).pins = s.pins := rfl
@[simp] theorem dropOffer_host (w : WaitingOffer) (s : State) : (dropOffer w s).host = s.host := rfl
@[simp] theorem dropOffer_dir (w : WaitingOffer) (s : State) : (dropOffer w s).dir = s.dir := rfl
@[simp] theorem dropOffer_line (w : WaitingOffer) (s : State) : (dropOffer w s).line = s.line := rfl
@[simp] theorem dropOffer_neg (w : WaitingOffer) (s : State) : (dropOffer w s).neg = s.neg := rfl
@[simp] theorem dropOffer_mnt (w : WaitingOffer) (s : State) : (dropOffer w s).mnt = s.mnt := rfl
@[simp] theorem dropOffer_lane (w : WaitingOffer) (s : State) : (dropOffer w s).lane = s.lane := rfl
@[simp] theorem dropOffer_prm (w : WaitingOffer) (s : State) : (dropOffer w s).prm = s.prm := rfl
@[simp] theorem dropOffer_wear (w : WaitingOffer) (s : State) : (dropOffer w s).wear = s.wear := rfl
@[simp] theorem dropOffer_acct (w : WaitingOffer) (s : State) : (dropOffer w s).acct = s.acct := rfl
@[simp] theorem dropOffer_seq_queue (w : WaitingOffer) (s : State) : (dropOffer w s).seq.queue = s.seq.queue := rfl
@[simp] theorem dropOffer_seq_waiting (w : WaitingOffer) (s : State) : (dropOffer w s).seq.waiting = dropFirst w s.seq.waiting := rfl
@[simp] theorem dropOffer_seq_arm (w : WaitingOffer) (s : State) : (dropOffer w s).seq.arm = s.seq.arm := rfl
@[simp] theorem dropOffer_seq_inArm (w : WaitingOffer) (s : State) : (dropOffer w s).seq.inArm = s.seq.inArm := rfl
@[simp] theorem dropOffer_seq_repeatSent (w : WaitingOffer) (s : State) : (dropOffer w s).seq.repeatSent = s.seq.repeatSent := rfl
@[simp] theorem dropOffer_seq_counter (w : WaitingOffer) (s : State) : (dropOffer w s).seq.counter = s.seq.counter := rfl
@[simp] theorem dropOffer_seq_ref (w : WaitingOffer) (s : State) : (dropOffer w s).seq.ref = s.seq.ref := rfl
@[simp] theorem dropOffer_seq_hint (w : WaitingOffer) (s : State) : (dropOffer w s).seq.hint = s.seq.hint := rfl
@[simp] theorem dropOffer_seq_audit (w : WaitingOffer) (s : State) : (dropOffer w s).seq.audit = s.seq.audit := rfl
@[simp] theorem dropOffer_seq_notices (w : WaitingOffer) (s : State) : (dropOffer w s).seq.notices = s.seq.notices := rfl
@[simp] theorem dropOffer_seq_sent (w : WaitingOffer) (s : State) : (dropOffer w s).seq.sent = s.seq.sent := rfl

@[simp] theorem dropSourcing_pending (id : ReqId) (s : State) : (dropSourcing id s).pending = s.pending := rfl
@[simp] theorem dropSourcing_pins (id : ReqId) (s : State) : (dropSourcing id s).pins = s.pins := rfl
@[simp] theorem dropSourcing_host (id : ReqId) (s : State) : (dropSourcing id s).host = s.host := rfl
@[simp] theorem dropSourcing_dir (id : ReqId) (s : State) : (dropSourcing id s).dir = s.dir := rfl
@[simp] theorem dropSourcing_line (id : ReqId) (s : State) : (dropSourcing id s).line = s.line := rfl
@[simp] theorem dropSourcing_neg (id : ReqId) (s : State) : (dropSourcing id s).neg = s.neg := rfl
@[simp] theorem dropSourcing_mnt (id : ReqId) (s : State) : (dropSourcing id s).mnt = s.mnt := rfl
@[simp] theorem dropSourcing_lane (id : ReqId) (s : State) : (dropSourcing id s).lane = s.lane := rfl
@[simp] theorem dropSourcing_prm (id : ReqId) (s : State) : (dropSourcing id s).prm = s.prm := rfl
@[simp] theorem dropSourcing_wear (id : ReqId) (s : State) : (dropSourcing id s).wear = s.wear := rfl
@[simp] theorem dropSourcing_acct (id : ReqId) (s : State) : (dropSourcing id s).acct = s.acct := rfl
@[simp] theorem dropSourcing_seq_queue (id : ReqId) (s : State) : (dropSourcing id s).seq.queue = s.seq.queue := rfl
@[simp] theorem dropSourcing_seq_waiting (id : ReqId) (s : State) : (dropSourcing id s).seq.waiting = s.seq.waiting.filter fun w => w != .sourceLocal id := rfl
@[simp] theorem dropSourcing_seq_arm (id : ReqId) (s : State) : (dropSourcing id s).seq.arm = s.seq.arm := rfl
@[simp] theorem dropSourcing_seq_inArm (id : ReqId) (s : State) : (dropSourcing id s).seq.inArm = s.seq.inArm := rfl
@[simp] theorem dropSourcing_seq_repeatSent (id : ReqId) (s : State) : (dropSourcing id s).seq.repeatSent = s.seq.repeatSent := rfl
@[simp] theorem dropSourcing_seq_counter (id : ReqId) (s : State) : (dropSourcing id s).seq.counter = s.seq.counter := rfl
@[simp] theorem dropSourcing_seq_ref (id : ReqId) (s : State) : (dropSourcing id s).seq.ref = s.seq.ref := rfl
@[simp] theorem dropSourcing_seq_hint (id : ReqId) (s : State) : (dropSourcing id s).seq.hint = s.seq.hint := rfl
@[simp] theorem dropSourcing_seq_audit (id : ReqId) (s : State) : (dropSourcing id s).seq.audit = s.seq.audit := rfl
@[simp] theorem dropSourcing_seq_notices (id : ReqId) (s : State) : (dropSourcing id s).seq.notices = s.seq.notices := rfl
@[simp] theorem dropSourcing_seq_sent (id : ReqId) (s : State) : (dropSourcing id s).seq.sent = s.seq.sent := rfl

@[simp] theorem updPrompt_pending (n : Nat) (f : Prompt → Prompt) (s : State) : (updPrompt n f s).pending = s.pending := rfl
@[simp] theorem updPrompt_pins (n : Nat) (f : Prompt → Prompt) (s : State) : (updPrompt n f s).pins = s.pins := rfl
@[simp] theorem updPrompt_host (n : Nat) (f : Prompt → Prompt) (s : State) : (updPrompt n f s).host = s.host := rfl
@[simp] theorem updPrompt_dir (n : Nat) (f : Prompt → Prompt) (s : State) : (updPrompt n f s).dir = s.dir := rfl
@[simp] theorem updPrompt_line (n : Nat) (f : Prompt → Prompt) (s : State) : (updPrompt n f s).line = s.line := rfl
@[simp] theorem updPrompt_neg (n : Nat) (f : Prompt → Prompt) (s : State) : (updPrompt n f s).neg = s.neg := rfl
@[simp] theorem updPrompt_mnt (n : Nat) (f : Prompt → Prompt) (s : State) : (updPrompt n f s).mnt = s.mnt := rfl
@[simp] theorem updPrompt_seq (n : Nat) (f : Prompt → Prompt) (s : State) : (updPrompt n f s).seq = s.seq := rfl
@[simp] theorem updPrompt_lane (n : Nat) (f : Prompt → Prompt) (s : State) : (updPrompt n f s).lane = s.lane := rfl
@[simp] theorem updPrompt_wear (n : Nat) (f : Prompt → Prompt) (s : State) : (updPrompt n f s).wear = s.wear := rfl
@[simp] theorem updPrompt_acct (n : Nat) (f : Prompt → Prompt) (s : State) : (updPrompt n f s).acct = s.acct := rfl
@[simp] theorem updPrompt_prm_cells (n : Nat) (f : Prompt → Prompt) (s : State) : (updPrompt n f s).prm.cells = s.prm.cells := rfl
@[simp] theorem updPrompt_prm_waiters (n : Nat) (f : Prompt → Prompt) (s : State) : (updPrompt n f s).prm.waiters = s.prm.waiters := rfl
@[simp] theorem updPrompt_prm_prompts (n : Nat) (f : Prompt → Prompt) (s : State) : (updPrompt n f s).prm.prompts = updWhere (fun p => p.number = n) f s.prm.prompts := rfl
@[simp] theorem updPrompt_prm_postings (n : Nat) (f : Prompt → Prompt) (s : State) : (updPrompt n f s).prm.postings = s.prm.postings := rfl
@[simp] theorem updPrompt_prm_remote (n : Nat) (f : Prompt → Prompt) (s : State) : (updPrompt n f s).prm.remote = s.prm.remote := rfl
@[simp] theorem updPrompt_prm_counter (n : Nat) (f : Prompt → Prompt) (s : State) : (updPrompt n f s).prm.counter = s.prm.counter := rfl
@[simp] theorem updPrompt_prm_shown (n : Nat) (f : Prompt → Prompt) (s : State) : (updPrompt n f s).prm.shown = s.prm.shown := rfl
@[simp] theorem updPrompt_prm_browsing (n : Nat) (f : Prompt → Prompt) (s : State) : (updPrompt n f s).prm.browsing = s.prm.browsing := rfl
@[simp] theorem updPrompt_prm_unconfirmed (n : Nat) (f : Prompt → Prompt) (s : State) : (updPrompt n f s).prm.unconfirmed = s.prm.unconfirmed := rfl
@[simp] theorem updPrompt_prm_doorOpen (n : Nat) (f : Prompt → Prompt) (s : State) : (updPrompt n f s).prm.doorOpen = s.prm.doorOpen := rfl

@[simp] theorem setCell_pending (i : Nat) (c : CellPos) (s : State) : (setCell i c s).pending = s.pending := rfl
@[simp] theorem setCell_pins (i : Nat) (c : CellPos) (s : State) : (setCell i c s).pins = s.pins := rfl
@[simp] theorem setCell_host (i : Nat) (c : CellPos) (s : State) : (setCell i c s).host = s.host := rfl
@[simp] theorem setCell_dir (i : Nat) (c : CellPos) (s : State) : (setCell i c s).dir = s.dir := rfl
@[simp] theorem setCell_line (i : Nat) (c : CellPos) (s : State) : (setCell i c s).line = s.line := rfl
@[simp] theorem setCell_neg (i : Nat) (c : CellPos) (s : State) : (setCell i c s).neg = s.neg := rfl
@[simp] theorem setCell_mnt (i : Nat) (c : CellPos) (s : State) : (setCell i c s).mnt = s.mnt := rfl
@[simp] theorem setCell_seq (i : Nat) (c : CellPos) (s : State) : (setCell i c s).seq = s.seq := rfl
@[simp] theorem setCell_lane (i : Nat) (c : CellPos) (s : State) : (setCell i c s).lane = s.lane := rfl
@[simp] theorem setCell_wear (i : Nat) (c : CellPos) (s : State) : (setCell i c s).wear = s.wear := rfl
@[simp] theorem setCell_acct (i : Nat) (c : CellPos) (s : State) : (setCell i c s).acct = s.acct := rfl
@[simp] theorem setCell_prm_cells (i : Nat) (c : CellPos) (s : State) : (setCell i c s).prm.cells = s.prm.cells.set i c := rfl
@[simp] theorem setCell_prm_waiters (i : Nat) (c : CellPos) (s : State) : (setCell i c s).prm.waiters = s.prm.waiters := rfl
@[simp] theorem setCell_prm_prompts (i : Nat) (c : CellPos) (s : State) : (setCell i c s).prm.prompts = s.prm.prompts := rfl
@[simp] theorem setCell_prm_postings (i : Nat) (c : CellPos) (s : State) : (setCell i c s).prm.postings = s.prm.postings := rfl
@[simp] theorem setCell_prm_remote (i : Nat) (c : CellPos) (s : State) : (setCell i c s).prm.remote = s.prm.remote := rfl
@[simp] theorem setCell_prm_counter (i : Nat) (c : CellPos) (s : State) : (setCell i c s).prm.counter = s.prm.counter := rfl
@[simp] theorem setCell_prm_shown (i : Nat) (c : CellPos) (s : State) : (setCell i c s).prm.shown = s.prm.shown := rfl
@[simp] theorem setCell_prm_browsing (i : Nat) (c : CellPos) (s : State) : (setCell i c s).prm.browsing = s.prm.browsing := rfl
@[simp] theorem setCell_prm_unconfirmed (i : Nat) (c : CellPos) (s : State) : (setCell i c s).prm.unconfirmed = s.prm.unconfirmed := rfl
@[simp] theorem setCell_prm_doorOpen (i : Nat) (c : CellPos) (s : State) : (setCell i c s).prm.doorOpen = s.prm.doorOpen := rfl

@[simp] theorem strikeWaiter_pending (h : Holder) (s : State) : (strikeWaiter h s).pending = s.pending := rfl
@[simp] theorem strikeWaiter_pins (h : Holder) (s : State) : (strikeWaiter h s).pins = s.pins := rfl
@[simp] theorem strikeWaiter_host (h : Holder) (s : State) : (strikeWaiter h s).host = s.host := rfl
@[simp] theorem strikeWaiter_dir (h : Holder) (s : State) : (strikeWaiter h s).dir = s.dir := rfl
@[simp] theorem strikeWaiter_line (h : Holder) (s : State) : (strikeWaiter h s).line = s.line := rfl
@[simp] theorem strikeWaiter_neg (h : Holder) (s : State) : (strikeWaiter h s).neg = s.neg := rfl
@[simp] theorem strikeWaiter_mnt (h : Holder) (s : State) : (strikeWaiter h s).mnt = s.mnt := rfl
@[simp] theorem strikeWaiter_seq (h : Holder) (s : State) : (strikeWaiter h s).seq = s.seq := rfl
@[simp] theorem strikeWaiter_lane (h : Holder) (s : State) : (strikeWaiter h s).lane = s.lane := rfl
@[simp] theorem strikeWaiter_wear (h : Holder) (s : State) : (strikeWaiter h s).wear = s.wear := rfl
@[simp] theorem strikeWaiter_acct (h : Holder) (s : State) : (strikeWaiter h s).acct = s.acct := rfl
@[simp] theorem strikeWaiter_prm_cells (h : Holder) (s : State) : (strikeWaiter h s).prm.cells = s.prm.cells := rfl
@[simp] theorem strikeWaiter_prm_waiters (h : Holder) (s : State) : (strikeWaiter h s).prm.waiters = s.prm.waiters.filter fun w => w != h := rfl
@[simp] theorem strikeWaiter_prm_prompts (h : Holder) (s : State) : (strikeWaiter h s).prm.prompts = s.prm.prompts := rfl
@[simp] theorem strikeWaiter_prm_postings (h : Holder) (s : State) : (strikeWaiter h s).prm.postings = s.prm.postings := rfl
@[simp] theorem strikeWaiter_prm_remote (h : Holder) (s : State) : (strikeWaiter h s).prm.remote = s.prm.remote := rfl
@[simp] theorem strikeWaiter_prm_counter (h : Holder) (s : State) : (strikeWaiter h s).prm.counter = s.prm.counter := rfl
@[simp] theorem strikeWaiter_prm_shown (h : Holder) (s : State) : (strikeWaiter h s).prm.shown = s.prm.shown := rfl
@[simp] theorem strikeWaiter_prm_browsing (h : Holder) (s : State) : (strikeWaiter h s).prm.browsing = s.prm.browsing := rfl
@[simp] theorem strikeWaiter_prm_unconfirmed (h : Holder) (s : State) : (strikeWaiter h s).prm.unconfirmed = s.prm.unconfirmed := rfl
@[simp] theorem strikeWaiter_prm_doorOpen (h : Holder) (s : State) : (strikeWaiter h s).prm.doorOpen = s.prm.doorOpen := rfl

@[simp] theorem removePrompt_pending (n : Nat) (s : State) : (removePrompt n s).pending = s.pending := rfl
@[simp] theorem removePrompt_pins (n : Nat) (s : State) : (removePrompt n s).pins = s.pins := rfl
@[simp] theorem removePrompt_host (n : Nat) (s : State) : (removePrompt n s).host = s.host := rfl
@[simp] theorem removePrompt_dir (n : Nat) (s : State) : (removePrompt n s).dir = s.dir := rfl
@[simp] theorem removePrompt_line (n : Nat) (s : State) : (removePrompt n s).line = s.line := rfl
@[simp] theorem removePrompt_neg (n : Nat) (s : State) : (removePrompt n s).neg = s.neg := rfl
@[simp] theorem removePrompt_mnt (n : Nat) (s : State) : (removePrompt n s).mnt = s.mnt := rfl
@[simp] theorem removePrompt_seq (n : Nat) (s : State) : (removePrompt n s).seq = s.seq := rfl
@[simp] theorem removePrompt_lane (n : Nat) (s : State) : (removePrompt n s).lane = s.lane := rfl
@[simp] theorem removePrompt_wear (n : Nat) (s : State) : (removePrompt n s).wear = s.wear := rfl
@[simp] theorem removePrompt_acct (n : Nat) (s : State) : (removePrompt n s).acct = s.acct := rfl
@[simp] theorem removePrompt_prm_cells (n : Nat) (s : State) : (removePrompt n s).prm.cells = s.prm.cells := rfl
@[simp] theorem removePrompt_prm_waiters (n : Nat) (s : State) : (removePrompt n s).prm.waiters = s.prm.waiters := rfl
@[simp] theorem removePrompt_prm_prompts (n : Nat) (s : State) : (removePrompt n s).prm.prompts = s.prm.prompts.filter fun p => p.number != n := rfl
@[simp] theorem removePrompt_prm_postings (n : Nat) (s : State) : (removePrompt n s).prm.postings = s.prm.postings := rfl
@[simp] theorem removePrompt_prm_remote (n : Nat) (s : State) : (removePrompt n s).prm.remote = s.prm.remote := rfl
@[simp] theorem removePrompt_prm_counter (n : Nat) (s : State) : (removePrompt n s).prm.counter = s.prm.counter := rfl
@[simp] theorem removePrompt_prm_shown (n : Nat) (s : State) : (removePrompt n s).prm.shown = s.prm.shown := rfl
@[simp] theorem removePrompt_prm_browsing (n : Nat) (s : State) : (removePrompt n s).prm.browsing = s.prm.browsing := rfl
@[simp] theorem removePrompt_prm_unconfirmed (n : Nat) (s : State) : (removePrompt n s).prm.unconfirmed = s.prm.unconfirmed := rfl
@[simp] theorem removePrompt_prm_doorOpen (n : Nat) (s : State) : (removePrompt n s).prm.doorOpen = s.prm.doorOpen := rfl

@[simp] theorem dropRemote_pending (a : Nat) (s : State) : (dropRemote a s).pending = s.pending := rfl
@[simp] theorem dropRemote_pins (a : Nat) (s : State) : (dropRemote a s).pins = s.pins := rfl
@[simp] theorem dropRemote_host (a : Nat) (s : State) : (dropRemote a s).host = s.host := rfl
@[simp] theorem dropRemote_dir (a : Nat) (s : State) : (dropRemote a s).dir = s.dir := rfl
@[simp] theorem dropRemote_line (a : Nat) (s : State) : (dropRemote a s).line = s.line := rfl
@[simp] theorem dropRemote_neg (a : Nat) (s : State) : (dropRemote a s).neg = s.neg := rfl
@[simp] theorem dropRemote_mnt (a : Nat) (s : State) : (dropRemote a s).mnt = s.mnt := rfl
@[simp] theorem dropRemote_seq (a : Nat) (s : State) : (dropRemote a s).seq = s.seq := rfl
@[simp] theorem dropRemote_lane (a : Nat) (s : State) : (dropRemote a s).lane = s.lane := rfl
@[simp] theorem dropRemote_wear (a : Nat) (s : State) : (dropRemote a s).wear = s.wear := rfl
@[simp] theorem dropRemote_acct (a : Nat) (s : State) : (dropRemote a s).acct = s.acct := rfl
@[simp] theorem dropRemote_prm_cells (a : Nat) (s : State) : (dropRemote a s).prm.cells = s.prm.cells := rfl
@[simp] theorem dropRemote_prm_waiters (a : Nat) (s : State) : (dropRemote a s).prm.waiters = s.prm.waiters := rfl
@[simp] theorem dropRemote_prm_prompts (a : Nat) (s : State) : (dropRemote a s).prm.prompts = s.prm.prompts := rfl
@[simp] theorem dropRemote_prm_postings (a : Nat) (s : State) : (dropRemote a s).prm.postings = s.prm.postings := rfl
@[simp] theorem dropRemote_prm_remote (a : Nat) (s : State) : (dropRemote a s).prm.remote = s.prm.remote.filter fun e => e.station != a := rfl
@[simp] theorem dropRemote_prm_counter (a : Nat) (s : State) : (dropRemote a s).prm.counter = s.prm.counter := rfl
@[simp] theorem dropRemote_prm_shown (a : Nat) (s : State) : (dropRemote a s).prm.shown = s.prm.shown := rfl
@[simp] theorem dropRemote_prm_browsing (a : Nat) (s : State) : (dropRemote a s).prm.browsing = s.prm.browsing := rfl
@[simp] theorem dropRemote_prm_unconfirmed (a : Nat) (s : State) : (dropRemote a s).prm.unconfirmed = s.prm.unconfirmed := rfl
@[simp] theorem dropRemote_prm_doorOpen (a : Nat) (s : State) : (dropRemote a s).prm.doorOpen = s.prm.doorOpen := rfl

@[simp] theorem setEntry_pending (slot : Nat) (e : HomeEntry) (s : State) : (setEntry slot e s).pending = s.pending := rfl
@[simp] theorem setEntry_pins (slot : Nat) (e : HomeEntry) (s : State) : (setEntry slot e s).pins = s.pins := rfl
@[simp] theorem setEntry_host (slot : Nat) (e : HomeEntry) (s : State) : (setEntry slot e s).host = s.host := rfl
@[simp] theorem setEntry_line (slot : Nat) (e : HomeEntry) (s : State) : (setEntry slot e s).line = s.line := rfl
@[simp] theorem setEntry_neg (slot : Nat) (e : HomeEntry) (s : State) : (setEntry slot e s).neg = s.neg := rfl
@[simp] theorem setEntry_mnt (slot : Nat) (e : HomeEntry) (s : State) : (setEntry slot e s).mnt = s.mnt := rfl
@[simp] theorem setEntry_seq (slot : Nat) (e : HomeEntry) (s : State) : (setEntry slot e s).seq = s.seq := rfl
@[simp] theorem setEntry_lane (slot : Nat) (e : HomeEntry) (s : State) : (setEntry slot e s).lane = s.lane := rfl
@[simp] theorem setEntry_prm (slot : Nat) (e : HomeEntry) (s : State) : (setEntry slot e s).prm = s.prm := rfl
@[simp] theorem setEntry_wear (slot : Nat) (e : HomeEntry) (s : State) : (setEntry slot e s).wear = s.wear := rfl
@[simp] theorem setEntry_acct (slot : Nat) (e : HomeEntry) (s : State) : (setEntry slot e s).acct = s.acct := rfl
@[simp] theorem setEntry_dir_catalog (slot : Nat) (e : HomeEntry) (s : State) : (setEntry slot e s).dir.catalog = tablePut s.dir.catalog slot e := rfl
@[simp] theorem setEntry_dir_learnt (slot : Nat) (e : HomeEntry) (s : State) : (setEntry slot e s).dir.learnt = s.dir.learnt := rfl

@[simp] theorem dropEntry_pending (slot : Nat) (s : State) : (dropEntry slot s).pending = s.pending := rfl
@[simp] theorem dropEntry_pins (slot : Nat) (s : State) : (dropEntry slot s).pins = s.pins := rfl
@[simp] theorem dropEntry_host (slot : Nat) (s : State) : (dropEntry slot s).host = s.host := rfl
@[simp] theorem dropEntry_line (slot : Nat) (s : State) : (dropEntry slot s).line = s.line := rfl
@[simp] theorem dropEntry_neg (slot : Nat) (s : State) : (dropEntry slot s).neg = s.neg := rfl
@[simp] theorem dropEntry_mnt (slot : Nat) (s : State) : (dropEntry slot s).mnt = s.mnt := rfl
@[simp] theorem dropEntry_seq (slot : Nat) (s : State) : (dropEntry slot s).seq = s.seq := rfl
@[simp] theorem dropEntry_lane (slot : Nat) (s : State) : (dropEntry slot s).lane = s.lane := rfl
@[simp] theorem dropEntry_prm (slot : Nat) (s : State) : (dropEntry slot s).prm = s.prm := rfl
@[simp] theorem dropEntry_wear (slot : Nat) (s : State) : (dropEntry slot s).wear = s.wear := rfl
@[simp] theorem dropEntry_acct (slot : Nat) (s : State) : (dropEntry slot s).acct = s.acct := rfl
@[simp] theorem dropEntry_dir_catalog (slot : Nat) (s : State) : (dropEntry slot s).dir.catalog = tableDrop s.dir.catalog slot := rfl
@[simp] theorem dropEntry_dir_learnt (slot : Nat) (s : State) : (dropEntry slot s).dir.learnt = s.dir.learnt := rfl

@[simp] theorem forgetWhere_pending (p : LearntEntry → Bool) (s : State) : (forgetWhere p s).pending = s.pending := rfl
@[simp] theorem forgetWhere_pins (p : LearntEntry → Bool) (s : State) : (forgetWhere p s).pins = s.pins := rfl
@[simp] theorem forgetWhere_host (p : LearntEntry → Bool) (s : State) : (forgetWhere p s).host = s.host := rfl
@[simp] theorem forgetWhere_line (p : LearntEntry → Bool) (s : State) : (forgetWhere p s).line = s.line := rfl
@[simp] theorem forgetWhere_neg (p : LearntEntry → Bool) (s : State) : (forgetWhere p s).neg = s.neg := rfl
@[simp] theorem forgetWhere_mnt (p : LearntEntry → Bool) (s : State) : (forgetWhere p s).mnt = s.mnt := rfl
@[simp] theorem forgetWhere_seq (p : LearntEntry → Bool) (s : State) : (forgetWhere p s).seq = s.seq := rfl
@[simp] theorem forgetWhere_lane (p : LearntEntry → Bool) (s : State) : (forgetWhere p s).lane = s.lane := rfl
@[simp] theorem forgetWhere_prm (p : LearntEntry → Bool) (s : State) : (forgetWhere p s).prm = s.prm := rfl
@[simp] theorem forgetWhere_wear (p : LearntEntry → Bool) (s : State) : (forgetWhere p s).wear = s.wear := rfl
@[simp] theorem forgetWhere_acct (p : LearntEntry → Bool) (s : State) : (forgetWhere p s).acct = s.acct := rfl
@[simp] theorem forgetWhere_dir_catalog (p : LearntEntry → Bool) (s : State) : (forgetWhere p s).dir.catalog = s.dir.catalog := rfl
@[simp] theorem forgetWhere_dir_learnt (p : LearntEntry → Bool) (s : State) : (forgetWhere p s).dir.learnt = s.dir.learnt.filter fun e => !p e.2 := rfl

@[simp] theorem setWear_pending (slot : Nat) (w : WearRec) (s : State) : (setWear slot w s).pending = s.pending := rfl
@[simp] theorem setWear_pins (slot : Nat) (w : WearRec) (s : State) : (setWear slot w s).pins = s.pins := rfl
@[simp] theorem setWear_host (slot : Nat) (w : WearRec) (s : State) : (setWear slot w s).host = s.host := rfl
@[simp] theorem setWear_dir (slot : Nat) (w : WearRec) (s : State) : (setWear slot w s).dir = s.dir := rfl
@[simp] theorem setWear_line (slot : Nat) (w : WearRec) (s : State) : (setWear slot w s).line = s.line := rfl
@[simp] theorem setWear_neg (slot : Nat) (w : WearRec) (s : State) : (setWear slot w s).neg = s.neg := rfl
@[simp] theorem setWear_mnt (slot : Nat) (w : WearRec) (s : State) : (setWear slot w s).mnt = s.mnt := rfl
@[simp] theorem setWear_seq (slot : Nat) (w : WearRec) (s : State) : (setWear slot w s).seq = s.seq := rfl
@[simp] theorem setWear_lane (slot : Nat) (w : WearRec) (s : State) : (setWear slot w s).lane = s.lane := rfl
@[simp] theorem setWear_prm (slot : Nat) (w : WearRec) (s : State) : (setWear slot w s).prm = s.prm := rfl
@[simp] theorem setWear_acct (slot : Nat) (w : WearRec) (s : State) : (setWear slot w s).acct = s.acct := rfl
@[simp] theorem setWear_wear_records (slot : Nat) (w : WearRec) (s : State) : (setWear slot w s).wear.records = tableSet WearRec.clear s.wear.records slot w := rfl
@[simp] theorem setWear_wear_handovers (slot : Nat) (w : WearRec) (s : State) : (setWear slot w s).wear.handovers = s.wear.handovers := rfl
@[simp] theorem setWear_wear_notices (slot : Nat) (w : WearRec) (s : State) : (setWear slot w s).wear.notices = s.wear.notices := rfl

@[simp] theorem updAccount_pending (n : Nat) (f : Account → Account) (s : State) : (updAccount n f s).pending = s.pending := rfl
@[simp] theorem updAccount_pins (n : Nat) (f : Account → Account) (s : State) : (updAccount n f s).pins = s.pins := rfl
@[simp] theorem updAccount_host (n : Nat) (f : Account → Account) (s : State) : (updAccount n f s).host = s.host := rfl
@[simp] theorem updAccount_dir (n : Nat) (f : Account → Account) (s : State) : (updAccount n f s).dir = s.dir := rfl
@[simp] theorem updAccount_line (n : Nat) (f : Account → Account) (s : State) : (updAccount n f s).line = s.line := rfl
@[simp] theorem updAccount_neg (n : Nat) (f : Account → Account) (s : State) : (updAccount n f s).neg = s.neg := rfl
@[simp] theorem updAccount_mnt (n : Nat) (f : Account → Account) (s : State) : (updAccount n f s).mnt = s.mnt := rfl
@[simp] theorem updAccount_seq (n : Nat) (f : Account → Account) (s : State) : (updAccount n f s).seq = s.seq := rfl
@[simp] theorem updAccount_lane (n : Nat) (f : Account → Account) (s : State) : (updAccount n f s).lane = s.lane := rfl
@[simp] theorem updAccount_prm (n : Nat) (f : Account → Account) (s : State) : (updAccount n f s).prm = s.prm := rfl
@[simp] theorem updAccount_wear (n : Nat) (f : Account → Account) (s : State) : (updAccount n f s).wear = s.wear := rfl
@[simp] theorem updAccount_acct_accounts (n : Nat) (f : Account → Account) (s : State) : (updAccount n f s).acct.accounts = tableSet Account.zero s.acct.accounts n (f (s.account n)) := rfl
@[simp] theorem updAccount_acct_spool (n : Nat) (f : Account → Account) (s : State) : (updAccount n f s).acct.spool = s.acct.spool := rfl
@[simp] theorem updAccount_acct_spoolState (n : Nat) (f : Account → Account) (s : State) : (updAccount n f s).acct.spoolState = s.acct.spoolState := rfl
@[simp] theorem updAccount_acct_counter (n : Nat) (f : Account → Account) (s : State) : (updAccount n f s).acct.counter = s.acct.counter := rfl
@[simp] theorem updAccount_acct_notices (n : Nat) (f : Account → Account) (s : State) : (updAccount n f s).acct.notices = s.acct.notices := rfl

@[simp] theorem setPeer_pending (a : Nat) (p : Peer) (s : State) : (setPeer a p s).pending = s.pending := rfl
@[simp] theorem setPeer_pins (a : Nat) (p : Peer) (s : State) : (setPeer a p s).pins = s.pins := rfl
@[simp] theorem setPeer_host (a : Nat) (p : Peer) (s : State) : (setPeer a p s).host = s.host := rfl
@[simp] theorem setPeer_dir (a : Nat) (p : Peer) (s : State) : (setPeer a p s).dir = s.dir := rfl
@[simp] theorem setPeer_neg (a : Nat) (p : Peer) (s : State) : (setPeer a p s).neg = s.neg := rfl
@[simp] theorem setPeer_mnt (a : Nat) (p : Peer) (s : State) : (setPeer a p s).mnt = s.mnt := rfl
@[simp] theorem setPeer_seq (a : Nat) (p : Peer) (s : State) : (setPeer a p s).seq = s.seq := rfl
@[simp] theorem setPeer_lane (a : Nat) (p : Peer) (s : State) : (setPeer a p s).lane = s.lane := rfl
@[simp] theorem setPeer_prm (a : Nat) (p : Peer) (s : State) : (setPeer a p s).prm = s.prm := rfl
@[simp] theorem setPeer_wear (a : Nat) (p : Peer) (s : State) : (setPeer a p s).wear = s.wear := rfl
@[simp] theorem setPeer_acct (a : Nat) (p : Peer) (s : State) : (setPeer a p s).acct = s.acct := rfl
@[simp] theorem setPeer_line_queue (a : Nat) (p : Peer) (s : State) : (setPeer a p s).line.queue = s.line.queue := rfl
@[simp] theorem setPeer_line_waiting (a : Nat) (p : Peer) (s : State) : (setPeer a p s).line.waiting = s.line.waiting := rfl
@[simp] theorem setPeer_line_dedupe (a : Nat) (p : Peer) (s : State) : (setPeer a p s).line.dedupe = s.line.dedupe := rfl
@[simp] theorem setPeer_line_peers (a : Nat) (p : Peer) (s : State) : (setPeer a p s).line.peers = tableSet Peer.unknown s.line.peers a p := rfl
@[simp] theorem setPeer_line_seqCounter (a : Nat) (p : Peer) (s : State) : (setPeer a p s).line.seqCounter = s.line.seqCounter := rfl
@[simp] theorem setPeer_line_phase (a : Nat) (p : Peer) (s : State) : (setPeer a p s).line.phase = s.line.phase := rfl
@[simp] theorem setPeer_line_attempt (a : Nat) (p : Peer) (s : State) : (setPeer a p s).line.attempt = s.line.attempt := rfl
@[simp] theorem setPeer_line_retries (a : Nat) (p : Peer) (s : State) : (setPeer a p s).line.retries = s.line.retries := rfl
@[simp] theorem setPeer_line_backoff (a : Nat) (p : Peer) (s : State) : (setPeer a p s).line.backoff = s.line.backoff := rfl
@[simp] theorem setPeer_line_presence (a : Nat) (p : Peer) (s : State) : (setPeer a p s).line.presence = s.line.presence := rfl
@[simp] theorem setPeer_line_sent (a : Nat) (p : Peer) (s : State) : (setPeer a p s).line.sent = s.line.sent := rfl

@[simp] theorem dropDedupe_pending (a : Nat) (s : State) : (dropDedupe a s).pending = s.pending := rfl
@[simp] theorem dropDedupe_pins (a : Nat) (s : State) : (dropDedupe a s).pins = s.pins := rfl
@[simp] theorem dropDedupe_host (a : Nat) (s : State) : (dropDedupe a s).host = s.host := rfl
@[simp] theorem dropDedupe_dir (a : Nat) (s : State) : (dropDedupe a s).dir = s.dir := rfl
@[simp] theorem dropDedupe_neg (a : Nat) (s : State) : (dropDedupe a s).neg = s.neg := rfl
@[simp] theorem dropDedupe_mnt (a : Nat) (s : State) : (dropDedupe a s).mnt = s.mnt := rfl
@[simp] theorem dropDedupe_seq (a : Nat) (s : State) : (dropDedupe a s).seq = s.seq := rfl
@[simp] theorem dropDedupe_lane (a : Nat) (s : State) : (dropDedupe a s).lane = s.lane := rfl
@[simp] theorem dropDedupe_prm (a : Nat) (s : State) : (dropDedupe a s).prm = s.prm := rfl
@[simp] theorem dropDedupe_wear (a : Nat) (s : State) : (dropDedupe a s).wear = s.wear := rfl
@[simp] theorem dropDedupe_acct (a : Nat) (s : State) : (dropDedupe a s).acct = s.acct := rfl
@[simp] theorem dropDedupe_line_queue (a : Nat) (s : State) : (dropDedupe a s).line.queue = s.line.queue := rfl
@[simp] theorem dropDedupe_line_waiting (a : Nat) (s : State) : (dropDedupe a s).line.waiting = s.line.waiting := rfl
@[simp] theorem dropDedupe_line_dedupe (a : Nat) (s : State) : (dropDedupe a s).line.dedupe = tableDrop s.line.dedupe a := rfl
@[simp] theorem dropDedupe_line_peers (a : Nat) (s : State) : (dropDedupe a s).line.peers = s.line.peers := rfl
@[simp] theorem dropDedupe_line_seqCounter (a : Nat) (s : State) : (dropDedupe a s).line.seqCounter = s.line.seqCounter := rfl
@[simp] theorem dropDedupe_line_phase (a : Nat) (s : State) : (dropDedupe a s).line.phase = s.line.phase := rfl
@[simp] theorem dropDedupe_line_attempt (a : Nat) (s : State) : (dropDedupe a s).line.attempt = s.line.attempt := rfl
@[simp] theorem dropDedupe_line_retries (a : Nat) (s : State) : (dropDedupe a s).line.retries = s.line.retries := rfl
@[simp] theorem dropDedupe_line_backoff (a : Nat) (s : State) : (dropDedupe a s).line.backoff = s.line.backoff := rfl
@[simp] theorem dropDedupe_line_presence (a : Nat) (s : State) : (dropDedupe a s).line.presence = s.line.presence := rfl
@[simp] theorem dropDedupe_line_sent (a : Nat) (s : State) : (dropDedupe a s).line.sent = s.line.sent := rfl

@[simp] theorem sendLine_pending (b : List Byte) (s : State) : (sendLine b s).pending = s.pending := rfl
@[simp] theorem sendLine_pins (b : List Byte) (s : State) : (sendLine b s).pins = s.pins := rfl
@[simp] theorem sendLine_host (b : List Byte) (s : State) : (sendLine b s).host = s.host := rfl
@[simp] theorem sendLine_dir (b : List Byte) (s : State) : (sendLine b s).dir = s.dir := rfl
@[simp] theorem sendLine_neg (b : List Byte) (s : State) : (sendLine b s).neg = s.neg := rfl
@[simp] theorem sendLine_mnt (b : List Byte) (s : State) : (sendLine b s).mnt = s.mnt := rfl
@[simp] theorem sendLine_seq (b : List Byte) (s : State) : (sendLine b s).seq = s.seq := rfl
@[simp] theorem sendLine_lane (b : List Byte) (s : State) : (sendLine b s).lane = s.lane := rfl
@[simp] theorem sendLine_prm (b : List Byte) (s : State) : (sendLine b s).prm = s.prm := rfl
@[simp] theorem sendLine_wear (b : List Byte) (s : State) : (sendLine b s).wear = s.wear := rfl
@[simp] theorem sendLine_acct (b : List Byte) (s : State) : (sendLine b s).acct = s.acct := rfl
@[simp] theorem sendLine_line_queue (b : List Byte) (s : State) : (sendLine b s).line.queue = s.line.queue := rfl
@[simp] theorem sendLine_line_waiting (b : List Byte) (s : State) : (sendLine b s).line.waiting = s.line.waiting := rfl
@[simp] theorem sendLine_line_dedupe (b : List Byte) (s : State) : (sendLine b s).line.dedupe = s.line.dedupe := rfl
@[simp] theorem sendLine_line_peers (b : List Byte) (s : State) : (sendLine b s).line.peers = s.line.peers := rfl
@[simp] theorem sendLine_line_seqCounter (b : List Byte) (s : State) : (sendLine b s).line.seqCounter = s.line.seqCounter := rfl
@[simp] theorem sendLine_line_phase (b : List Byte) (s : State) : (sendLine b s).line.phase = s.line.phase := rfl
@[simp] theorem sendLine_line_attempt (b : List Byte) (s : State) : (sendLine b s).line.attempt = s.line.attempt := rfl
@[simp] theorem sendLine_line_retries (b : List Byte) (s : State) : (sendLine b s).line.retries = s.line.retries := rfl
@[simp] theorem sendLine_line_backoff (b : List Byte) (s : State) : (sendLine b s).line.backoff = s.line.backoff := rfl
@[simp] theorem sendLine_line_presence (b : List Byte) (s : State) : (sendLine b s).line.presence = s.line.presence := rfl
@[simp] theorem sendLine_line_sent (b : List Byte) (s : State) : (sendLine b s).line.sent = s.line.sent ++ [b] := rfl

@[simp] theorem updSettings_pending (f : Settings → Settings) (s : State) : (updSettings f s).pending = s.pending := rfl
@[simp] theorem updSettings_pins (f : Settings → Settings) (s : State) : (updSettings f s).pins = s.pins := rfl
@[simp] theorem updSettings_dir (f : Settings → Settings) (s : State) : (updSettings f s).dir = s.dir := rfl
@[simp] theorem updSettings_line (f : Settings → Settings) (s : State) : (updSettings f s).line = s.line := rfl
@[simp] theorem updSettings_neg (f : Settings → Settings) (s : State) : (updSettings f s).neg = s.neg := rfl
@[simp] theorem updSettings_mnt (f : Settings → Settings) (s : State) : (updSettings f s).mnt = s.mnt := rfl
@[simp] theorem updSettings_seq (f : Settings → Settings) (s : State) : (updSettings f s).seq = s.seq := rfl
@[simp] theorem updSettings_lane (f : Settings → Settings) (s : State) : (updSettings f s).lane = s.lane := rfl
@[simp] theorem updSettings_prm (f : Settings → Settings) (s : State) : (updSettings f s).prm = s.prm := rfl
@[simp] theorem updSettings_wear (f : Settings → Settings) (s : State) : (updSettings f s).wear = s.wear := rfl
@[simp] theorem updSettings_acct (f : Settings → Settings) (s : State) : (updSettings f s).acct = s.acct := rfl
@[simp] theorem updSettings_host_state (f : Settings → Settings) (s : State) : (updSettings f s).host.state = s.host.state := rfl
@[simp] theorem updSettings_host_straps (f : Settings → Settings) (s : State) : (updSettings f s).host.straps = s.host.straps := rfl
@[simp] theorem updSettings_host_clock (f : Settings → Settings) (s : State) : (updSettings f s).host.clock = s.host.clock := rfl
@[simp] theorem updSettings_host_clockRuns (f : Settings → Settings) (s : State) : (updSettings f s).host.clockRuns = s.host.clockRuns := rfl
@[simp] theorem updSettings_host_settings (f : Settings → Settings) (s : State) : (updSettings f s).host.settings = f s.host.settings := rfl
@[simp] theorem updSettings_host_commands (f : Settings → Settings) (s : State) : (updSettings f s).host.commands = s.host.commands := rfl
@[simp] theorem updSettings_host_reports (f : Settings → Settings) (s : State) : (updSettings f s).host.reports = s.host.reports := rfl
@[simp] theorem updSettings_host_pointer (f : Settings → Settings) (s : State) : (updSettings f s).host.pointer = s.host.pointer := rfl
@[simp] theorem updSettings_host_notices (f : Settings → Settings) (s : State) : (updSettings f s).host.notices = s.host.notices := rfl
@[simp] theorem updSettings_host_lastWrite (f : Settings → Settings) (s : State) : (updSettings f s).host.lastWrite = s.host.lastWrite := rfl
@[simp] theorem updSettings_host_lastRead (f : Settings → Settings) (s : State) : (updSettings f s).host.lastRead = s.host.lastRead := rfl

@[simp] theorem setStation_pending (st : StationState) (s : State) : (setStation st s).pending = s.pending := rfl
@[simp] theorem setStation_pins (st : StationState) (s : State) : (setStation st s).pins = s.pins := rfl
@[simp] theorem setStation_dir (st : StationState) (s : State) : (setStation st s).dir = s.dir := rfl
@[simp] theorem setStation_line (st : StationState) (s : State) : (setStation st s).line = s.line := rfl
@[simp] theorem setStation_neg (st : StationState) (s : State) : (setStation st s).neg = s.neg := rfl
@[simp] theorem setStation_mnt (st : StationState) (s : State) : (setStation st s).mnt = s.mnt := rfl
@[simp] theorem setStation_seq (st : StationState) (s : State) : (setStation st s).seq = s.seq := rfl
@[simp] theorem setStation_lane (st : StationState) (s : State) : (setStation st s).lane = s.lane := rfl
@[simp] theorem setStation_prm (st : StationState) (s : State) : (setStation st s).prm = s.prm := rfl
@[simp] theorem setStation_wear (st : StationState) (s : State) : (setStation st s).wear = s.wear := rfl
@[simp] theorem setStation_acct (st : StationState) (s : State) : (setStation st s).acct = s.acct := rfl
@[simp] theorem setStation_host_state (st : StationState) (s : State) : (setStation st s).host.state = st := rfl
@[simp] theorem setStation_host_straps (st : StationState) (s : State) : (setStation st s).host.straps = s.host.straps := rfl
@[simp] theorem setStation_host_clock (st : StationState) (s : State) : (setStation st s).host.clock = s.host.clock := rfl
@[simp] theorem setStation_host_clockRuns (st : StationState) (s : State) : (setStation st s).host.clockRuns = s.host.clockRuns := rfl
@[simp] theorem setStation_host_settings (st : StationState) (s : State) : (setStation st s).host.settings = s.host.settings := rfl
@[simp] theorem setStation_host_commands (st : StationState) (s : State) : (setStation st s).host.commands = s.host.commands := rfl
@[simp] theorem setStation_host_reports (st : StationState) (s : State) : (setStation st s).host.reports = s.host.reports := rfl
@[simp] theorem setStation_host_pointer (st : StationState) (s : State) : (setStation st s).host.pointer = s.host.pointer := rfl
@[simp] theorem setStation_host_notices (st : StationState) (s : State) : (setStation st s).host.notices = s.host.notices := rfl
@[simp] theorem setStation_host_lastWrite (st : StationState) (s : State) : (setStation st s).host.lastWrite = s.host.lastWrite := rfl
@[simp] theorem setStation_host_lastRead (st : StationState) (s : State) : (setStation st s).host.lastRead = s.host.lastRead := rfl

@[simp] theorem setPointer_pending (k : Nat) (s : State) : (setPointer k s).pending = s.pending := rfl
@[simp] theorem setPointer_pins (k : Nat) (s : State) : (setPointer k s).pins = s.pins := rfl
@[simp] theorem setPointer_dir (k : Nat) (s : State) : (setPointer k s).dir = s.dir := rfl
@[simp] theorem setPointer_line (k : Nat) (s : State) : (setPointer k s).line = s.line := rfl
@[simp] theorem setPointer_neg (k : Nat) (s : State) : (setPointer k s).neg = s.neg := rfl
@[simp] theorem setPointer_mnt (k : Nat) (s : State) : (setPointer k s).mnt = s.mnt := rfl
@[simp] theorem setPointer_seq (k : Nat) (s : State) : (setPointer k s).seq = s.seq := rfl
@[simp] theorem setPointer_lane (k : Nat) (s : State) : (setPointer k s).lane = s.lane := rfl
@[simp] theorem setPointer_prm (k : Nat) (s : State) : (setPointer k s).prm = s.prm := rfl
@[simp] theorem setPointer_wear (k : Nat) (s : State) : (setPointer k s).wear = s.wear := rfl
@[simp] theorem setPointer_acct (k : Nat) (s : State) : (setPointer k s).acct = s.acct := rfl
@[simp] theorem setPointer_host_state (k : Nat) (s : State) : (setPointer k s).host.state = s.host.state := rfl
@[simp] theorem setPointer_host_straps (k : Nat) (s : State) : (setPointer k s).host.straps = s.host.straps := rfl
@[simp] theorem setPointer_host_clock (k : Nat) (s : State) : (setPointer k s).host.clock = s.host.clock := rfl
@[simp] theorem setPointer_host_clockRuns (k : Nat) (s : State) : (setPointer k s).host.clockRuns = s.host.clockRuns := rfl
@[simp] theorem setPointer_host_settings (k : Nat) (s : State) : (setPointer k s).host.settings = s.host.settings := rfl
@[simp] theorem setPointer_host_commands (k : Nat) (s : State) : (setPointer k s).host.commands = s.host.commands := rfl
@[simp] theorem setPointer_host_reports (k : Nat) (s : State) : (setPointer k s).host.reports = s.host.reports := rfl
@[simp] theorem setPointer_host_pointer (k : Nat) (s : State) : (setPointer k s).host.pointer = k := rfl
@[simp] theorem setPointer_host_notices (k : Nat) (s : State) : (setPointer k s).host.notices = s.host.notices := rfl
@[simp] theorem setPointer_host_lastWrite (k : Nat) (s : State) : (setPointer k s).host.lastWrite = s.host.lastWrite := rfl
@[simp] theorem setPointer_host_lastRead (k : Nat) (s : State) : (setPointer k s).host.lastRead = s.host.lastRead := rfl

@[simp] theorem updSide_west_pending (f : SideRec → SideRec) (s : State) : (updSide .west f s).pending = s.pending := rfl
@[simp] theorem updSide_west_pins (f : SideRec → SideRec) (s : State) : (updSide .west f s).pins = s.pins := rfl
@[simp] theorem updSide_west_host (f : SideRec → SideRec) (s : State) : (updSide .west f s).host = s.host := rfl
@[simp] theorem updSide_west_dir (f : SideRec → SideRec) (s : State) : (updSide .west f s).dir = s.dir := rfl
@[simp] theorem updSide_west_line (f : SideRec → SideRec) (s : State) : (updSide .west f s).line = s.line := rfl
@[simp] theorem updSide_west_neg (f : SideRec → SideRec) (s : State) : (updSide .west f s).neg = s.neg := rfl
@[simp] theorem updSide_west_mnt (f : SideRec → SideRec) (s : State) : (updSide .west f s).mnt = s.mnt := rfl
@[simp] theorem updSide_west_seq (f : SideRec → SideRec) (s : State) : (updSide .west f s).seq = s.seq := rfl
@[simp] theorem updSide_west_prm (f : SideRec → SideRec) (s : State) : (updSide .west f s).prm = s.prm := rfl
@[simp] theorem updSide_west_wear (f : SideRec → SideRec) (s : State) : (updSide .west f s).wear = s.wear := rfl
@[simp] theorem updSide_west_acct (f : SideRec → SideRec) (s : State) : (updSide .west f s).acct = s.acct := rfl
@[simp] theorem updSide_west_lane_west (f : SideRec → SideRec) (s : State) : (updSide .west f s).lane.west = f s.lane.west := rfl
@[simp] theorem updSide_west_lane_east (f : SideRec → SideRec) (s : State) : (updSide .west f s).lane.east = s.lane.east := rfl
@[simp] theorem updSide_west_lane_notices (f : SideRec → SideRec) (s : State) : (updSide .west f s).lane.notices = s.lane.notices := rfl

@[simp] theorem updSide_east_pending (f : SideRec → SideRec) (s : State) : (updSide .east f s).pending = s.pending := rfl
@[simp] theorem updSide_east_pins (f : SideRec → SideRec) (s : State) : (updSide .east f s).pins = s.pins := rfl
@[simp] theorem updSide_east_host (f : SideRec → SideRec) (s : State) : (updSide .east f s).host = s.host := rfl
@[simp] theorem updSide_east_dir (f : SideRec → SideRec) (s : State) : (updSide .east f s).dir = s.dir := rfl
@[simp] theorem updSide_east_line (f : SideRec → SideRec) (s : State) : (updSide .east f s).line = s.line := rfl
@[simp] theorem updSide_east_neg (f : SideRec → SideRec) (s : State) : (updSide .east f s).neg = s.neg := rfl
@[simp] theorem updSide_east_mnt (f : SideRec → SideRec) (s : State) : (updSide .east f s).mnt = s.mnt := rfl
@[simp] theorem updSide_east_seq (f : SideRec → SideRec) (s : State) : (updSide .east f s).seq = s.seq := rfl
@[simp] theorem updSide_east_prm (f : SideRec → SideRec) (s : State) : (updSide .east f s).prm = s.prm := rfl
@[simp] theorem updSide_east_wear (f : SideRec → SideRec) (s : State) : (updSide .east f s).wear = s.wear := rfl
@[simp] theorem updSide_east_acct (f : SideRec → SideRec) (s : State) : (updSide .east f s).acct = s.acct := rfl
@[simp] theorem updSide_east_lane_east (f : SideRec → SideRec) (s : State) : (updSide .east f s).lane.east = f s.lane.east := rfl
@[simp] theorem updSide_east_lane_west (f : SideRec → SideRec) (s : State) : (updSide .east f s).lane.west = s.lane.west := rfl
@[simp] theorem updSide_east_lane_notices (f : SideRec → SideRec) (s : State) : (updSide .east f s).lane.notices = s.lane.notices := rfl

@[simp] theorem updSide_pending (d : Side) (f : SideRec → SideRec) (s : State) : (updSide d f s).pending = s.pending := by cases d <;> rfl
@[simp] theorem updSide_pins (d : Side) (f : SideRec → SideRec) (s : State) : (updSide d f s).pins = s.pins := by cases d <;> rfl
@[simp] theorem updSide_host (d : Side) (f : SideRec → SideRec) (s : State) : (updSide d f s).host = s.host := by cases d <;> rfl
@[simp] theorem updSide_dir (d : Side) (f : SideRec → SideRec) (s : State) : (updSide d f s).dir = s.dir := by cases d <;> rfl
@[simp] theorem updSide_line (d : Side) (f : SideRec → SideRec) (s : State) : (updSide d f s).line = s.line := by cases d <;> rfl
@[simp] theorem updSide_neg (d : Side) (f : SideRec → SideRec) (s : State) : (updSide d f s).neg = s.neg := by cases d <;> rfl
@[simp] theorem updSide_mnt (d : Side) (f : SideRec → SideRec) (s : State) : (updSide d f s).mnt = s.mnt := by cases d <;> rfl
@[simp] theorem updSide_seq (d : Side) (f : SideRec → SideRec) (s : State) : (updSide d f s).seq = s.seq := by cases d <;> rfl
@[simp] theorem updSide_prm (d : Side) (f : SideRec → SideRec) (s : State) : (updSide d f s).prm = s.prm := by cases d <;> rfl
@[simp] theorem updSide_wear (d : Side) (f : SideRec → SideRec) (s : State) : (updSide d f s).wear = s.wear := by cases d <;> rfl
@[simp] theorem updSide_acct (d : Side) (f : SideRec → SideRec) (s : State) : (updSide d f s).acct = s.acct := by cases d <;> rfl
@[simp] theorem updSide_lane_notices (d : Side) (f : SideRec → SideRec) (s : State) : (updSide d f s).lane.notices = s.lane.notices := by
  cases d <;> rfl
@[simp] theorem updSide_side (d : Side) (f : SideRec → SideRec) (s : State) : (updSide d f s).side d = f (s.side d) := by
  cases d <;> rfl

end Sys2Proof.Machine
end

