-- ==== Sys2Proof/Laws/Ops.lean ====
section
/-! SUPPORT. What the shared operations over tables, lists and records do: reads after writes, the form tables keep, lengths; and what
waiting items, orders given up and hand-overs can do. -/

namespace Sys2Proof.Machine

/-! ### Tables -/

/-- A write is read back. -/
@[simp] theorem tableGet_put_same {α : Type} (t : Table α) (i : Nat) (x : α) : tableGet (tablePut t i x) i = some x := by
  induction t with
  | nil => simp [tablePut, tableGet]
  | cons e t ih =>
    obtain ⟨k, v⟩ := e
    unfold tablePut
    split
    · simp [tableGet]
    · split
      · simp [tableGet]
      · simp [tableGet, *]

/-- A write leaves every other key alone. -/
theorem tableGet_put_other {α : Type} (t : Table α) {i j : Nat} (x : α) (h : j ≠ i) :
    tableGet (tablePut t i x) j = tableGet t j := by
  induction t with
  | nil => simp [tablePut, tableGet, h]
  | cons e t ih =>
    obtain ⟨k, v⟩ := e
    unfold tablePut
    split
    · simp [tableGet, h]
    · split
      · next hk => subst hk; simp [tableGet, h]
      · simp [tableGet, ih]

/-- A dropped key reads as nothing. -/
@[simp] theorem tableGet_drop_same {α : Type} (t : Table α) (i : Nat) : tableGet (tableDrop t i) i = none := by
  induction t with
  | nil => rfl
  | cons e t ih =>
    obtain ⟨k, v⟩ := e
    by_cases h : k = i
    · subst h; simpa [tableDrop] using ih
    · have : i ≠ k := fun e => h e.symm
      simp [tableDrop, h, tableGet, this] at ih ⊢
      exact ih

/-- Dropping a key leaves every other key alone. -/
theorem tableGet_drop_other {α : Type} (t : Table α) {i j : Nat} (h : j ≠ i) : tableGet (tableDrop t i) j = tableGet t j := by
  induction t with
  | nil => rfl
  | cons e t ih =>
    obtain ⟨k, v⟩ := e
    by_cases hk : k = i
    · subst hk
      simp [tableDrop, tableGet, h] at ih ⊢
      exact ih
    · simp [tableDrop, hk, tableGet] at ih ⊢
      rw [ih]

/-- A table that lists no default entry is read the same way after a write of any value. -/
theorem tableGet_set_same {α : Type} [DecidableEq α] (d : α) (t : Table α) (i : Nat) (x : α) :
    (tableGet (tableSet d t i x) i).getD d = x := by
  unfold tableSet
  split <;> simp_all

/-- A write of any value leaves every other key alone. -/
theorem tableGet_set_other {α : Type} [DecidableEq α] (d : α) (t : Table α) {i j : Nat} (x : α) (h : j ≠ i) :
    tableGet (tableSet d t i x) j = tableGet t j := by
  unfold tableSet
  split
  · exact tableGet_drop_other t h
  · exact tableGet_put_other t x h

/-- Keys strictly rising, as a property of the list of keys. -/
theorem tableWf_iff {α : Type} (t : Table α) : tableWf t = true ↔ (t.map (·.1)).Pairwise (· < ·) := by
  induction t with
  | nil => simp [tableWf]
  | cons e t ih =>
    cases t with
    | nil => simp [tableWf]
    | cons f t =>
      obtain ⟨i, x⟩ := e
      obtain ⟨j, y⟩ := f
      simp only [tableWf, Bool.and_eq_true, decide_eq_true_eq, ih]
      simp only [List.map_cons, List.pairwise_cons, List.mem_cons, forall_eq_or_imp]
      constructor
      · rintro ⟨h1, h2, h3⟩
        exact ⟨⟨h1, fun a ha => Nat.lt_trans h1 (h2 a ha)⟩, h2, h3⟩
      · rintro ⟨⟨h1, -⟩, h2, h3⟩
        exact ⟨h1, h2, h3⟩

/-- Writing a key adds no key but it. -/
theorem mem_keys_put {α : Type} (t : Table α) (i : Nat) (x : α) (k : Nat) (h : k ∈ (tablePut t i x).map (·.1)) :
    k = i ∨ k ∈ t.map (·.1) := by
  induction t with
  | nil => simpa [tablePut] using h
  | cons e t ih =>
    obtain ⟨j, v⟩ := e
    unfold tablePut at h
    split at h
    · simpa using h
    · split at h
      · next hj => subst hj; simpa using h
      · simp only [List.map_cons, List.mem_cons] at h ⊢
        rcases h with h | h
        · exact .inr (.inl h)
        · rcases ih h with h | h
          · exact .inl h
          · exact .inr (.inr h)

/-- A write keeps the form. -/
theorem tableWf_put {α : Type} {t : Table α} (h : tableWf t = true) (i : Nat) (x : α) : tableWf (tablePut t i x) = true := by
  rw [tableWf_iff] at *
  induction t with
  | nil => simp [tablePut]
  | cons e t ih =>
    obtain ⟨k, v⟩ := e
    simp only [List.map_cons, List.pairwise_cons] at h
    unfold tablePut
    split
    · next hi =>
      simp only [List.map_cons, List.pairwise_cons, List.mem_cons, forall_eq_or_imp]
      exact ⟨⟨hi, fun a ha => Nat.lt_trans hi (h.1 a ha)⟩, h⟩
    · split
      · next hi => subst hi; simpa using h
      · next h1 h2 =>
        simp only [List.map_cons, List.pairwise_cons]
        refine ⟨fun a ha => ?_, ih h.2⟩
        rcases mem_keys_put t i x a ha with rfl | ha
        · omega
        · exact h.1 a ha

/-- A filter keeps the form. -/
theorem tableWf_filter {α : Type} {t : Table α} (h : tableWf t = true) (p : Nat × α → Bool) : tableWf (t.filter p) = true := by
  rw [tableWf_iff] at *
  exact h.sublist ((List.filter_sublist).map _)

/-- Dropping a key keeps the form. -/
theorem tableWf_drop {α : Type} {t : Table α} (h : tableWf t = true) (i : Nat) : tableWf (tableDrop t i) = true :=
  tableWf_filter h _

/-- A write that lists no default entry keeps the form. -/
theorem tableWf_set {α : Type} [DecidableEq α] {t : Table α} (h : tableWf t = true) (d : α) (i : Nat) (x : α) :
    tableWf (tableSet d t i x) = true := by
  unfold tableSet
  split
  · exact tableWf_drop h i
  · exact tableWf_put h i x

/-- Changing entries and no key keeps the form. -/
theorem tableWf_map {α : Type} {t : Table α} (h : tableWf t = true) (f : Nat × α → Nat × α) (hf : ∀ e, (f e).1 = e.1) :
    tableWf (t.map f) = true := by
  rw [tableWf_iff] at *
  rw [List.map_map]
  have : ((fun e : Nat × α => e.1) ∘ f) = fun e => e.1 := funext hf
  rw [this]
  exact h

/-! ### Lists -/

/-- A change of entries keeps their number. -/
@[simp] theorem length_updWhere {α : Type} (p : α → Bool) (f : α → α) (l : List α) : (updWhere p f l).length = l.length := by
  simp [updWhere]

/-- A change of entries that keeps what `p` reads keeps the entries `p` picks. -/
theorem length_filter_updWhere {α : Type} (p q : α → Bool) (f : α → α) (l : List α) (h : ∀ x, q (f x) = q x) :
    ((updWhere p f l).filter q).length = (l.filter q).length := by
  induction l with
  | nil => rfl
  | cons x l ih =>
    simp only [updWhere, List.map_cons, List.filter_cons] at ih ⊢
    have : q (if p x then f x else x) = q x := by split <;> simp [h]
    rw [this]
    split <;> simp [ih]

/-! ### Numbers given from a counter (R48, R114, R156) -/

/-- The number found lies in the counter's range when the counter does. -/
theorem freshFrom_lt {k n : Nat} (used : List Nat) (h : n < 256) : freshFrom k used n < 256 := by
  induction k generalizing n with
  | zero => simpa [freshFrom]
  | succ k ih =>
    unfold freshFrom
    split
    · exact ih (Nat.mod_lt _ (by decide))
    · exact h

/-- A search that comes back to a used number has met only used numbers. -/
theorem freshFrom_mem {k n : Nat} {used : List Nat} (hn : n < 256) (h : freshFrom k used n ∈ used) :
    ∀ i, i < k → (n + i) % 256 ∈ used := by
  induction k generalizing n with
  | zero => intro i hi; omega
  | succ k ih =>
    intro i hi
    unfold freshFrom at h
    split at h
    · next hu =>
      cases i with
      | zero => simpa [Nat.mod_eq_of_lt hn] using hu
      | succ i =>
        have := ih (n := wrapSucc 256 n) (Nat.mod_lt _ (by decide)) h i (by omega)
        rw [wrapSucc, Nat.mod_add_mod] at this
        rwa [show n + (i + 1) = n + 1 + i by omega]
    · next hu => exact absurd h hu

/-- A search of more numbers than are in use finds one that is not in use. -/
theorem freshFrom_not_mem {k n : Nat} {used : List Nat} (hn : n < 256) (hk : k ≤ 256) (hl : used.length < k) :
    freshFrom k used n ∉ used := by
  intro h
  have hall := freshFrom_mem hn h
  have hsub : (Finset.range k).image (fun i => (n + i) % 256) ⊆ used.toFinset := by
    intro x hx
    rw [Finset.mem_image] at hx
    obtain ⟨i, hi, rfl⟩ := hx
    rw [List.mem_toFinset]
    exact hall i (Finset.mem_range.mp hi)
  have hcard : ((Finset.range k).image (fun i => (n + i) % 256)).card = k := by
    rw [Finset.card_image_of_injOn, Finset.card_range]
    intro i hi j hj hij
    simp only [Finset.coe_range, Set.mem_Iio] at hi hj
    simp only at hij
    omega
  have h1 := Finset.card_le_card hsub
  have h2 := List.toFinset_card_le used
  omega

/-- With fewer than 255 numbers in use, the number given is one that is not in use. -/
theorem freshNumber_not_mem {used : List Nat} (n : Nat) (hl : used.length < 255) : freshNumber used n ∉ used := by
  unfold freshNumber freshFrom
  split
  · exact freshFrom_not_mem (Nat.mod_lt _ (by decide)) (by decide) hl
  · next h => exact h

/-! ### Side records -/

/-- A change of one side leaves the other alone. -/
theorem updSide_other {d e : Side} (h : e ≠ d) (f : SideRec → SideRec) (s : State) : (updSide d f s).side e = s.side e := by
  cases d <;> cases e <;> first | rfl | exact absurd rfl h

/-! ### Frames offered (R35) -/

/-- A broadcast or unicast frame that starts nothing on entering stands at the tail of the transmit queue when there is room. -/
theorem offerTx_room {s : State} (h : s.lineRoom = true) (dst : Option Nat) (b : Body)
    (hs : ∀ t : State, frameEntered ⟨dst, b, false, 0, false⟩ t = t) (hc : ∀ l n, b ≠ .credit l n) :
    offerTx ⟨dst, b, false, 0, false⟩ s = s.queueing dst b := by
  simp only [State.lineRoom, Bool.and_eq_true, bne_iff_ne, ne_eq] at h
  unfold offerTx
  rw [if_neg h.1]
  cases b <;> simp_all [enterQueue, State.queueing]

/-- With room, a frame enters the queue at once, and what its entry starts is started (R35). -/
theorem offerTx_enters {s : State} (h : s.lineRoom = true) (f : TxFrame) (hc : ∀ l n, f.body ≠ .credit l n) :
    offerTx f s = { frameEntered f s with line := { (frameEntered f s).line with
      queue := (frameEntered f s).line.queue ++ [f] } } := by
  simp only [State.lineRoom, Bool.and_eq_true, bne_iff_ne, ne_eq] at h
  unfold offerTx
  rw [if_neg h.1]
  cases hb : f.body <;> simp_all [enterQueue]

/-! ### Waiting items, orders given up, hand-overs -/

/-- The return check that a waiting pick has when it is taken changes where the reel goes and nothing else of the order (R7, R108). -/
theorem recheckOffer_eq (o : ArmOrder) (s : State) :
    recheckOffer o s = o ∨ ∃ m, s.recordOf o = some m ∧ recheckOffer o s = o.toDest (s.checkedDest m) := by
  unfold recheckOffer
  split
  · rename_i m _ hm
    split
    · exact .inr ⟨m, hm, rfl⟩
    · exact .inl rfl
  · exact .inl rfl

/-- An order given up leaves the arm position empty (R115, R117). -/
@[simp] theorem abandonOrder_inArm (o : ArmOrder) (a : ArmState) (s : State) : (abandonOrder o a s).seq.inArm = none := rfl

/-- An order given up leaves the arm in the state asked for (R115, R117). -/
@[simp] theorem abandonOrder_arm (o : ArmOrder) (a : ArmState) (s : State) : (abandonOrder o a s).seq.arm = a := rfl

/-- An offer that waits goes on waiting while 12 orders are queued (R114). -/
theorem takeWaitingOffer_full {s : State} (h : Config.orderPlaces ≤ s.seq.queue.length) : takeWaitingOffer s = s := by
  unfold takeWaitingOffer
  split
  · exact if_neg (Nat.not_lt.mpr h)
  · rfl

/-- A frame that waits goes on waiting while 16 frames are queued (R35). -/
theorem takeWaitingFrame_full {s : State} (h : Config.transmitPlaces ≤ s.line.queue.length) : takeWaitingFrame s = s := by
  unfold takeWaitingFrame
  split
  · rfl
  · exact if_neg (Nat.not_lt.mpr h)

/-- A hand-over for a slot whose entry is empty changes nothing (R171). -/
theorem takeHandover_empty {h : Handover} {s : State} (he : s.entry h.slot = none) : takeHandover h s = s := by
  simp [takeHandover, he]

/-! ### Reels left on a drive -/

/-- The record whose reel was left on a drive is a live one of that drive (R92). -/
theorem leftOn_spec {s : State} {d : Nat} {m : MountRec} (h : s.leftOn d = some m) :
    m ∈ s.mnt.mounts ∧ m.reelLeft = true ∧ m.drive = d := by
  have hp := List.find?_some h
  simp only [Bool.and_eq_true, decide_eq_true_eq] at hp
  exact ⟨List.mem_of_find?_eq_some h, hp⟩

/-- With no record's reel left on a drive, none is found there. -/
theorem leftOn_none {s : State} {d : Nat} (h : ∀ m ∈ s.mnt.mounts, m.reelLeft = false) : s.leftOn d = none := by
  simp only [State.leftOn, List.find?_eq_none]
  intro m hm
  simp [h m hm]

end Sys2Proof.Machine
end

