-- ==== Sys2Proof/Laws/Settle.lean ====
section
/-! SUPPORT. The end of an event: what selectArm, refreshDisplay and settle leave unchanged, when they change nothing, what the
selection answers, and that what they leave is settled. -/

namespace Sys2Proof.Machine

/-! ### What they leave unchanged -/

/-- An issue touches the Handling Sequencer only. -/
theorem issue_eq (o : ArmOrder) (s : State) :
    issue o s = { s with seq := { s.seq with
      inArm := some o
      arm := .busy
      repeatSent := false
      ref := some (s.locPoint o.dst)
      sent := s.seq.sent ++ [.order o.number o.phases (s.locPoint o.src) o.srcPos (s.locPoint o.dst) o.dstPos] } } := rfl

/-- The arm's choice touches the Handling Sequencer only. -/
theorem selectArm_eq (s : State) : selectArm s = { s with seq := (selectArm s).seq } := by
  unfold selectArm
  split
  · split
    · split <;> rfl
    · rfl
  · split <;> rfl
  · rfl
  · rfl

@[simp] theorem selectArm_pending (s : State) : (selectArm s).pending = s.pending := by rw [selectArm_eq]
@[simp] theorem selectArm_pins (s : State) : (selectArm s).pins = s.pins := by rw [selectArm_eq]
@[simp] theorem selectArm_host (s : State) : (selectArm s).host = s.host := by rw [selectArm_eq]
@[simp] theorem selectArm_dir (s : State) : (selectArm s).dir = s.dir := by rw [selectArm_eq]
@[simp] theorem selectArm_line (s : State) : (selectArm s).line = s.line := by rw [selectArm_eq]
@[simp] theorem selectArm_neg (s : State) : (selectArm s).neg = s.neg := by rw [selectArm_eq]
@[simp] theorem selectArm_mnt (s : State) : (selectArm s).mnt = s.mnt := by rw [selectArm_eq]
@[simp] theorem selectArm_lane (s : State) : (selectArm s).lane = s.lane := by rw [selectArm_eq]
@[simp] theorem selectArm_prm (s : State) : (selectArm s).prm = s.prm := by rw [selectArm_eq]
@[simp] theorem selectArm_wear (s : State) : (selectArm s).wear = s.wear := by rw [selectArm_eq]
@[simp] theorem selectArm_acct (s : State) : (selectArm s).acct = s.acct := by rw [selectArm_eq]

/-- The display touches three fields of the console state only. -/
theorem refreshDisplay_eq (k : Bool) (s : State) :
    refreshDisplay k s = { s with prm := { s.prm with
      shown := (refreshDisplay k s).prm.shown
      browsing := (refreshDisplay k s).prm.browsing
      unconfirmed := (refreshDisplay k s).prm.unconfirmed } } := by
  unfold refreshDisplay
  simp only
  split <;> rfl

@[simp] theorem refreshDisplay_pending (k : Bool) (s : State) : (refreshDisplay k s).pending = s.pending := by
  rw [refreshDisplay_eq]
@[simp] theorem refreshDisplay_pins (k : Bool) (s : State) : (refreshDisplay k s).pins = s.pins := by rw [refreshDisplay_eq]
@[simp] theorem refreshDisplay_host (k : Bool) (s : State) : (refreshDisplay k s).host = s.host := by rw [refreshDisplay_eq]
@[simp] theorem refreshDisplay_dir (k : Bool) (s : State) : (refreshDisplay k s).dir = s.dir := by rw [refreshDisplay_eq]
@[simp] theorem refreshDisplay_line (k : Bool) (s : State) : (refreshDisplay k s).line = s.line := by rw [refreshDisplay_eq]
@[simp] theorem refreshDisplay_neg (k : Bool) (s : State) : (refreshDisplay k s).neg = s.neg := by rw [refreshDisplay_eq]
@[simp] theorem refreshDisplay_mnt (k : Bool) (s : State) : (refreshDisplay k s).mnt = s.mnt := by rw [refreshDisplay_eq]
@[simp] theorem refreshDisplay_seq (k : Bool) (s : State) : (refreshDisplay k s).seq = s.seq := by rw [refreshDisplay_eq]
@[simp] theorem refreshDisplay_lane (k : Bool) (s : State) : (refreshDisplay k s).lane = s.lane := by rw [refreshDisplay_eq]
@[simp] theorem refreshDisplay_wear (k : Bool) (s : State) : (refreshDisplay k s).wear = s.wear := by rw [refreshDisplay_eq]
@[simp] theorem refreshDisplay_acct (k : Bool) (s : State) : (refreshDisplay k s).acct = s.acct := by rw [refreshDisplay_eq]
@[simp] theorem refreshDisplay_prompts (k : Bool) (s : State) : (refreshDisplay k s).prm.prompts = s.prm.prompts := by
  rw [refreshDisplay_eq]
@[simp] theorem refreshDisplay_remote (k : Bool) (s : State) : (refreshDisplay k s).prm.remote = s.prm.remote := by
  rw [refreshDisplay_eq]
@[simp] theorem refreshDisplay_cells (k : Bool) (s : State) : (refreshDisplay k s).prm.cells = s.prm.cells := by
  rw [refreshDisplay_eq]
@[simp] theorem refreshDisplay_doorOpen (k : Bool) (s : State) : (refreshDisplay k s).prm.doorOpen = s.prm.doorOpen := by
  rw [refreshDisplay_eq]

@[simp] theorem settle_pending (k : Bool) (s : State) : (settle k s).pending = s.pending := by simp [settle]
@[simp] theorem settle_pins (k : Bool) (s : State) : (settle k s).pins = s.pins := by simp [settle]
@[simp] theorem settle_host (k : Bool) (s : State) : (settle k s).host = s.host := by simp [settle]
@[simp] theorem settle_dir (k : Bool) (s : State) : (settle k s).dir = s.dir := by simp [settle]
@[simp] theorem settle_line (k : Bool) (s : State) : (settle k s).line = s.line := by simp [settle]
@[simp] theorem settle_neg (k : Bool) (s : State) : (settle k s).neg = s.neg := by simp [settle]
@[simp] theorem settle_mnt (k : Bool) (s : State) : (settle k s).mnt = s.mnt := by simp [settle]
@[simp] theorem settle_lane (k : Bool) (s : State) : (settle k s).lane = s.lane := by simp [settle]
@[simp] theorem settle_wear (k : Bool) (s : State) : (settle k s).wear = s.wear := by simp [settle]
@[simp] theorem settle_acct (k : Bool) (s : State) : (settle k s).acct = s.acct := by simp [settle]
@[simp] theorem settle_seq (k : Bool) (s : State) : (settle k s).seq = (selectArm s).seq := by simp [settle]
@[simp] theorem settle_prompts (k : Bool) (s : State) : (settle k s).prm.prompts = s.prm.prompts := by simp [settle]
@[simp] theorem settle_remote (k : Bool) (s : State) : (settle k s).prm.remote = s.prm.remote := by simp [settle]
@[simp] theorem settle_cells (k : Bool) (s : State) : (settle k s).prm.cells = s.prm.cells := by simp [settle]

/-! ### What the selection answers (R120) -/

/-- One that goes before an order goes before all that this one goes before. -/
theorem ArmOrder.before_trans {p q r : ArmOrder} (h : p.before q = true) (hq : q.before r = true) : p.before r = true := by
  simp only [ArmOrder.before, Bool.or_eq_true, Bool.and_eq_true, decide_eq_true_eq] at *
  omega

/-- An order that goes before one goes before every order that does not. -/
theorem ArmOrder.before_of_before_of_not {p q r : ArmOrder} (h : p.before r = true) (hq : q.before r = false) :
    p.before q = true := by
  simp only [ArmOrder.before, Bool.or_eq_true, Bool.and_eq_true, decide_eq_true_eq, Bool.or_eq_false_iff, Bool.and_eq_false_iff,
    decide_eq_false_iff_not] at *
  omega

/-- One that does not go before an order does not go before any that this one does not go before. -/
theorem ArmOrder.not_before_trans {q p o : ArmOrder} (h : q.before p = false) (hp : p.before o = false) : q.before o = false :=
  Bool.eq_false_iff.2 fun e => Bool.eq_false_iff.1 h (ArmOrder.before_of_before_of_not e hp)

/-- The selection finds nothing in the empty list only. -/
theorem firstByRank_none {l : List ArmOrder} (h : firstByRank l = none) : l = [] := by
  cases l with
  | nil => rfl
  | cons x t =>
    simp only [firstByRank] at h
    split at h
    · cases h
    · split at h <;> cases h

/-- The selection answers an order that goes before every earlier one of the list, and that no later one goes before. -/
theorem firstByRank_some {l : List ArmOrder} {o : ArmOrder} (h : firstByRank l = some o) :
    ∃ pre post, l = pre ++ o :: post ∧ (∀ q ∈ pre, o.before q = true) ∧ ∀ q ∈ post, q.before o = false := by
  induction l generalizing o with
  | nil => cases h
  | cons x t ih =>
    simp only [firstByRank] at h
    split at h
    · next e => cases h; exact ⟨[], t, rfl, by simp, by simp [firstByRank_none e]⟩
    · next p e =>
      obtain ⟨pre, post, rfl, hpre, hpost⟩ := ih e
      split at h
      · next hx =>
        cases h
        exact ⟨x :: pre, post, rfl, by simpa [hx] using hpre, hpost⟩
      · next hx =>
        cases h
        have hx : p.before x = false := by simpa using hx
        refine ⟨[], pre ++ p :: post, rfl, by simp, fun q hq => ?_⟩
        simp only [List.mem_append, List.mem_cons] at hq
        obtain hq | rfl | hq := hq
        · exact Bool.eq_false_iff.2 fun e => Bool.eq_false_iff.1 hx
            (ArmOrder.before_trans (hpre q hq) e)
        · exact hx
        · exact ArmOrder.not_before_trans (hpost q hq) hx

/-! ### What is settled -/

/-- Eligibility reads the order and the door only. -/
theorem eligible_congr {s t : State} (h : t.prm.doorOpen = s.prm.doorOpen) (o : ArmOrder) : t.eligible o = s.eligible o := by
  simp [State.eligible, h]

/-- The choice reads the queue and the door only. -/
theorem choice_congr {s t : State} (hq : t.seq.queue = s.seq.queue) (hd : t.prm.doorOpen = s.prm.doorOpen) :
    t.choice = s.choice := by
  have he : t.eligible = s.eligible := funext fun o => eligible_congr hd o
  simp [State.choice, hq, he]

/-- The display order reads the prompts only. -/
theorem displayOrder_congr {s t : State} (h : t.prm.prompts = s.prm.prompts) : t.displayOrder = s.displayOrder := by
  have : t.shownAt = s.shownAt := funext fun k => by simp [State.shownAt, h]
  simp [State.displayOrder, this]

/-- Whether the arm is settled reads the arm, its order, the queue and the door. -/
theorem armSettled_congr {s t : State} (ha : t.seq.arm = s.seq.arm) (hi : t.seq.inArm = s.seq.inArm)
    (hq : t.seq.queue = s.seq.queue) (hd : t.prm.doorOpen = s.prm.doorOpen) : t.armSettled = s.armSettled := by
  have he : t.eligible = s.eligible := funext fun o => eligible_congr hd o
  simp [State.armSettled, ha, hi, choice_congr hq hd, he]

/-- Whether the display is settled reads the prompts and the console's three fields. -/
theorem displaySettled_congr {s t : State} (hp : t.prm.prompts = s.prm.prompts) (h1 : t.prm.shown = s.prm.shown)
    (h2 : t.prm.browsing = s.prm.browsing) (h3 : t.prm.unconfirmed = s.prm.unconfirmed) :
    t.displaySettled = s.displaySettled := by
  simp [State.displaySettled, h1, h2, h3, State.displayHead, displayOrder_congr hp]

/-- A change that touches none of what the arm and the display read keeps a state settled. -/
theorem settled_congr {s t : State} (ha : t.seq.arm = s.seq.arm) (hi : t.seq.inArm = s.seq.inArm)
    (hq : t.seq.queue = s.seq.queue) (hd : t.prm.doorOpen = s.prm.doorOpen) (hp : t.prm.prompts = s.prm.prompts)
    (h1 : t.prm.shown = s.prm.shown) (h2 : t.prm.browsing = s.prm.browsing)
    (h3 : t.prm.unconfirmed = s.prm.unconfirmed) : t.settled = s.settled := by
  simp [State.settled, armSettled_congr ha hi hq hd, displaySettled_congr hp h1 h2 h3]

/-- A settled arm is given nothing. -/
theorem selectArm_of_settled {s : State} (h : s.armSettled = true) : selectArm s = s := by
  unfold State.armSettled at h
  unfold selectArm
  split <;> simp_all
  split <;> simp_all

/-- A settled display changes nothing. -/
theorem refreshDisplay_of_settled {s : State} (h : s.displaySettled = true) (k : Bool) : refreshDisplay k s = s := by
  obtain ⟨pe, pi, ho, di, li, ne, mn, se, la, pr, we, ac⟩ := s
  obtain ⟨ce, wa, ps, po, re, co, sh, br, un, dr⟩ := pr
  cases sh with
  | none =>
    simp [State.displaySettled] at h
    obtain ⟨⟨h1, rfl⟩, rfl⟩ := h
    simp [refreshDisplay, State.displayHead, h1]
  | some n =>
    simp only [State.displaySettled] at h
    cases br with
    | false =>
      simp at h
      simp [refreshDisplay, h]
    | true =>
      simp at h
      simp [refreshDisplay, eq_comm (a := n), h]

/-- A settled state is left as it is. -/
theorem settle_of_settled {s : State} (h : s.settled = true) (k : Bool) : settle k s = s := by
  simp [State.settled] at h
  rw [settle, selectArm_of_settled h.1, refreshDisplay_of_settled h.2]

/-- The arm is settled once it has had its choice. -/
theorem selectArm_armSettled (s : State) : (selectArm s).armSettled = true := by
  unfold selectArm
  split
  · split
    · split
      · rfl
      · simp_all [State.armSettled]
    · simp_all [State.armSettled]
  · split
    · rfl
    · simp_all [State.armSettled]
  · simp_all [State.armSettled]
  · simp_all [State.armSettled]

/-- The display is settled once it has been brought up to date. -/
theorem refreshDisplay_displaySettled (k : Bool) (s : State) : (refreshDisplay k s).displaySettled = true := by
  have ho : (refreshDisplay k s).displayOrder = s.displayOrder := displayOrder_congr (by simp)
  unfold State.displaySettled State.displayHead
  rw [ho]
  unfold refreshDisplay
  simp only
  cases hk : s.prm.browsing && s.displayOrder.any fun p => s.prm.shown = some p.number with
  | true =>
    cases hs : s.prm.shown with
    | none => simp [hs] at hk
    | some n =>
      simp [hs] at hk
      obtain ⟨-, p, hp, hn⟩ := hk
      simp
      exact ⟨p, hp, hn.symm⟩
  | false =>
    cases hd : s.displayHead with
    | none => simpa [State.displayHead] using hd
    | some n => simpa [State.displayHead] using hd

/-- What an event ends with is settled. -/
theorem settle_settled (k : Bool) (s : State) : (settle k s).settled = true := by
  have h : (settle k s).armSettled = (selectArm s).armSettled :=
    armSettled_congr (by simp) (by simp) (by simp) (by simp [settle])
  simp [State.settled, h, selectArm_armSettled]
  exact refreshDisplay_displaySettled k (selectArm s)

/-- An event that leaves the part settled ends with that state. -/
theorem runEvent_of_settled {f : State → State} {s : State} (hr : s.pins.resetHeld = false) (h : (f s).settled = true) :
    runEvent f s = .next (f s) := by
  simp [runEvent, hr, settle_of_settled h]

/-- A key that leaves the part settled ends with that state. -/
theorem runKey_of_settled {f : State → State} {s : State} (hr : s.pins.resetHeld = false) (h : (f s).settled = true) :
    runKey f s = .next (f s) := by
  simp [runKey, hr, settle_of_settled h]

/-- A device reset leaves the part settled. -/
theorem resetWith_settled (p : Pins) (c : List Instr) : (State.resetWith p c).settled = true := rfl

end Sys2Proof.Machine
end

