-- ==== Sys2Proof/Laws/Host.lean ====
section
/-! SUPPORT. What a host command row does when the port is ready for it, and what the host port's operations leave unchanged. -/

namespace Sys2Proof.Machine

/-- What `ready` says, in its parts. -/
theorem ready_parts {s : State} (h : s.ready = true) :
    s.pins.resetHeld = false ∧ s.host.commands = [] ∧ s.host.reports.length < 32 ∧ s.neg.notices = [] ∧ s.mnt.notices = []
      ∧ s.seq.notices = [] ∧ s.lane.notices = [] ∧ s.wear.notices = [] ∧ s.acct.notices = [] ∧ s.host.notices = [] := by
  simp only [State.ready, State.quietNotices, Bool.and_eq_true, Bool.not_eq_true', List.isEmpty_iff,
    Config.reportPlaces] at h
  obtain ⟨⟨⟨a, b⟩, c⟩, ⟨⟨⟨⟨⟨d, e⟩, f⟩, g⟩, i⟩, j⟩, k⟩ := h
  exact ⟨a, b, of_decide_eq_true c, d, e, f, g, i, j, k⟩

/-- On a ready port a command's record is written, granted and taken at once: its row runs the command (R195 to R197). -/
theorem hostCommand_ready {s : State} (h : s.ready = true) (code : Nat) (tag : Byte) (p : List Byte)
    (hr : CmdRec.isReset ⟨BitVec.ofNat 8 code, tag, p⟩ = false) :
    hostCommand code tag p s = takeCommand ⟨BitVec.ofNat 8 code, tag, p⟩ s.opened := by
  obtain ⟨-, hc, hl, h1, h2, h3, h4, h5, h6, h7⟩ := ready_parts h
  have hw : writeCommand ⟨BitVec.ofNat 8 code, tag, p⟩ s
      = { s with host := { s.host with commands := [⟨BitVec.ofNat 8 code, tag, p⟩], lastWrite := .taken } } := by
    simp [writeCommand, hc, Config.commandPlaces]
  have hg : State.grantee { s with host := { s.host with
      commands := [⟨BitVec.ofNat 8 code, tag, p⟩], lastWrite := .taken } } = some 1 := by
    have hroom : 0 < State.reportRoom { s with host := { s.host with
        commands := [⟨BitVec.ofNat 8 code, tag, p⟩], lastWrite := .taken } } := by
      simp [State.reportRoom, Config.reportPlaces]; omega
    unfold State.grantee
    rw [if_pos hroom]
    have hw : State.waits { s with host := { s.host with
        commands := [⟨BitVec.ofNat 8 code, tag, p⟩], lastWrite := .taken } } = fun k => decide (k = 1) := by
      funext k
      unfold State.waits
      split <;> simp_all
    rw [hw]
    generalize s.host.pointer = q
    simp only [rotation, List.find?_append, Option.or_eq_some_iff]
    by_cases hq : q < 1
    · left
      have : q = 0 := by omega
      subst this; rfl
    · right
      constructor
      · rw [List.find?_eq_none]
        intro x hx
        simp at hx ⊢
        omega
      · rw [List.filter_cons, if_pos (by simp; omega)]
        rfl
  have ht : State.resetAtHead { s with host := { s.host with
      commands := [⟨BitVec.ofNat 8 code, tag, p⟩], lastWrite := .taken } } = false := by
    simp [State.resetAtHead, hr]
  have hh : ¬ s.host.commands.head? = some ⟨BitVec.ofNat 8 code, tag, p⟩ := by simp [hc]
  unfold hostCommand
  simp only [if_neg hh, hw]
  rw [if_pos ⟨rfl, .inr hg⟩]
  unfold grantPlace
  simp only [ht, Bool.false_eq_true, if_false, hg]
  simp only [grantTo, if_true, takeFirstCommand, setPointer, State.opened]
  rw [← hc]

/-- A command of good form, in a state that takes it, is run (R196). -/
theorem takeCommand_run (r : CmdRec) (s : State) (hf : formFits r.code.toNat r.payload = true)
    (hs : takenIn r.code.toNat s.host.state = true) : takeCommand r s = runCommand r.code.toNat r.tag r.payload s := by
  simp [takeCommand, hf, hs]

/-- An answer is what `answered` says. -/
theorem answer_eq (tag : Byte) (a : Answer) (s : State) : answer tag a s = s.answered tag a := rfl

@[simp] theorem opened_pending (s : State) : s.opened.pending = s.pending := rfl
@[simp] theorem opened_pins (s : State) : s.opened.pins = s.pins := rfl
@[simp] theorem opened_dir (s : State) : s.opened.dir = s.dir := rfl
@[simp] theorem opened_line (s : State) : s.opened.line = s.line := rfl
@[simp] theorem opened_neg (s : State) : s.opened.neg = s.neg := rfl
@[simp] theorem opened_mnt (s : State) : s.opened.mnt = s.mnt := rfl
@[simp] theorem opened_seq (s : State) : s.opened.seq = s.seq := rfl
@[simp] theorem opened_lane (s : State) : s.opened.lane = s.lane := rfl
@[simp] theorem opened_prm (s : State) : s.opened.prm = s.prm := rfl
@[simp] theorem opened_wear (s : State) : s.opened.wear = s.wear := rfl
@[simp] theorem opened_acct (s : State) : s.opened.acct = s.acct := rfl
@[simp] theorem opened_state (s : State) : s.opened.host.state = s.host.state := rfl
@[simp] theorem opened_settings (s : State) : s.opened.host.settings = s.host.settings := rfl
@[simp] theorem opened_straps (s : State) : s.opened.host.straps = s.host.straps := rfl
@[simp] theorem opened_clock (s : State) : s.opened.host.clock = s.host.clock := rfl
@[simp] theorem opened_settled (s : State) : s.opened.settled = s.settled :=
  settled_congr rfl rfl rfl rfl rfl rfl rfl rfl

@[simp] theorem answered_pending (t : Byte) (a : Answer) (s : State) : (s.answered t a).pending = s.pending := rfl
@[simp] theorem answered_pins (t : Byte) (a : Answer) (s : State) : (s.answered t a).pins = s.pins := rfl
@[simp] theorem answered_dir (t : Byte) (a : Answer) (s : State) : (s.answered t a).dir = s.dir := rfl
@[simp] theorem answered_line (t : Byte) (a : Answer) (s : State) : (s.answered t a).line = s.line := rfl
@[simp] theorem answered_neg (t : Byte) (a : Answer) (s : State) : (s.answered t a).neg = s.neg := rfl
@[simp] theorem answered_mnt (t : Byte) (a : Answer) (s : State) : (s.answered t a).mnt = s.mnt := rfl
@[simp] theorem answered_seq (t : Byte) (a : Answer) (s : State) : (s.answered t a).seq = s.seq := rfl
@[simp] theorem answered_lane (t : Byte) (a : Answer) (s : State) : (s.answered t a).lane = s.lane := rfl
@[simp] theorem answered_prm (t : Byte) (a : Answer) (s : State) : (s.answered t a).prm = s.prm := rfl
@[simp] theorem answered_wear (t : Byte) (a : Answer) (s : State) : (s.answered t a).wear = s.wear := rfl
@[simp] theorem answered_acct (t : Byte) (a : Answer) (s : State) : (s.answered t a).acct = s.acct := rfl
@[simp] theorem answered_settled (t : Byte) (a : Answer) (s : State) : (s.answered t a).settled = s.settled :=
  settled_congr rfl rfl rfl rfl rfl rfl rfl rfl

/-- A host command row on a ready, settled port: whatever taking the command gives, when that is settled (R196). -/
theorem hostRow_next {s : State} (h : s.ready = true) {i : Instr} {code : Nat} {tag : Byte} {p : List Byte}
    (hi : hostRow i = some (code, tag, p)) (hr : CmdRec.isReset ⟨BitVec.ofNat 8 code, tag, p⟩ = false)
    (ht : (takeCommand ⟨BitVec.ofNat 8 code, tag, p⟩ s.opened).settled = true) :
    exec i s = .next (takeCommand ⟨BitVec.ofNat 8 code, tag, p⟩ s.opened) := by
  have key : exec i s = runEvent (hostCommand code tag p) s := by
    cases i <;> simp only [hostRow, reduceCtorEq, Option.some.injEq, Prod.mk.injEq] at hi <;>
      (obtain ⟨rfl, rfl, rfl⟩ := hi; rfl)
  rw [key, runEvent_of_settled (ready_parts h).1 (by rw [hostCommand_ready h _ _ _ hr]; exact ht), hostCommand_ready h _ _ _ hr]

end Sys2Proof.Machine
end

