-- ==== Sys2Proof/Laws/Line.lean ====
section
/-! SUPPORT. What a frame heard does, up to the block that acts on it: a unicast frame accepted, a broadcast, an ACK. -/

namespace Sys2Proof.Machine

/-- What `hears` says, in its parts. -/
theorem hears_parts {s : State} {k : FrameKind} {f : RawFrame} (h : s.hears k f = true) :
    s.pins.resetHeld = false ∧ s.line.phase ≠ .sending ∧ framePasses k f = true ∧ f.src.toNat ≠ s.addr ∧ s.onLine = true
      ∧ (s.peer f.src.toNat).presence ≠ .down := by
  simp only [State.hears, Bool.and_eq_true, Bool.not_eq_true', bne_iff_ne, ne_eq] at h
  obtain ⟨⟨⟨⟨⟨a, b⟩, c⟩, d⟩, e⟩, f⟩ := h
  exact ⟨a, b, c, d, e, f⟩

/-- A peer that is not DOWN is touched without a report (R39). -/
theorem touchPeer_up {s : State} {a : Nat} (h : (s.peer a).presence ≠ .down) : touchPeer a s = s.touched a := by
  simp [touchPeer, State.touched, h]

/-- A station on the line is not in CONFIG. -/
theorem onLine_not_config {s : State} (h : s.onLine = true) : s.host.state ≠ .config := by
  intro hc
  simp [State.onLine, hc] at h

/-- A frame that is heard is taken as a peer's frame. -/
theorem hear_takes {s : State} {k : FrameKind} {f : RawFrame} (h : s.hears k f = true) : hear k f s = takePeerFrame k f s := by
  obtain ⟨-, h1, h2, h3, h4, -⟩ := hears_parts h
  unfold hear
  rw [if_neg (by simp [h1, h2]), if_neg h3, if_neg (onLine_not_config h4)]

@[simp] theorem touched_host (s : State) (a : Nat) : (s.touched a).host = s.host := rfl
@[simp] theorem touched_onLine (s : State) (a : Nat) : (s.touched a).onLine = s.onLine := rfl

/-- A payload read as a kind gives a body of that kind. -/
theorem bodyOf_kind {k : FrameKind} {p : List Byte} {b : Body} (h : bodyOf k p = some b) : b.kind = k := by
  cases k <;> simp only [bodyOf, readLocate, readHolding, readOffer, readBid, readAward, readAccept, readDecline, readId,
    readResult, readFetch, readNotHere, readCredit, readNotice, readCleared, readAck] at h
  case hello | deposit => obtain ⟨x, -, rfl⟩ := Option.map_eq_some_iff.mp h; rfl
  all_goals
    (split at h <;> first
    | (cases h; rfl)
    | cases h
    | (split at h <;> first
        | (cases h; rfl)
        | cases h
        | (split at h <;> first | (cases h; rfl) | cases h)))

/-- A unicast frame that is accepted is acknowledged and passed to the block that acts on its kind (R28, R32). -/
theorem hear_accepts {s : State} {f : RawFrame} {b : Body} (h : s.accepts f b = true) (hb : b.kind.broadcast = false)
    (ha : b.kind ≠ .ack) : hear b.kind f s = actOn f.src.toNat b (s.acked f) := by
  simp only [State.accepts, Bool.and_eq_true, beq_iff_eq] at h
  obtain ⟨⟨h, hm⟩, hbody⟩ := h
  obtain ⟨-, -, -, -, h4, h5⟩ := hears_parts h
  simp only [State.addressed, Bool.and_eq_true, beq_iff_eq, bne_iff_ne, ne_eq] at hm
  rw [hear_takes h]
  have hh : ∀ x, b ≠ .hello x := by
    intro x hx; subst hx; simp [Body.kind, FrameKind.broadcast] at hb
  have hd : ¬ tableGet (s.touched f.src.toNat).line.dedupe f.src.toNat = some f.seq.toNat := hm.2
  unfold takePeerFrame
  rw [hbody]
  cases b <;> simp_all [touchPeer_up, acceptUnicast, passOn] <;> rfl

/-- A unicast frame that is accepted but has a field outside its tables is acknowledged and discarded; a NOT HERE still has its volser
forgotten (R17, R32, R46). -/
theorem hear_unusable {s : State} {k : FrameKind} {f : RawFrame} (h : s.hears k f = true) (hm : s.addressed f = true)
    (hb : bodyOf k f.payload = none) (hk : k.broadcast = false) (ha : k ≠ .ack) :
    hear k f s = unusable k f.payload (s.acked f) := by
  obtain ⟨-, -, -, -, h4, h5⟩ := hears_parts h
  simp only [State.addressed, Bool.and_eq_true, beq_iff_eq, bne_iff_ne, ne_eq] at hm
  rw [hear_takes h]
  have hd : ¬ tableGet (s.touched f.src.toNat).line.dedupe f.src.toNat = some f.seq.toNat := hm.2
  unfold takePeerFrame
  rw [hb]
  simp_all [touchPeer_up, acceptUnicast, passOn]
  rfl

/-- A frame that no block can use changes the learnt table only. -/
theorem unusable_learnt (k : FrameKind) (p : List Byte) (s : State) :
    unusable k p s = { s with dir := { s.dir with learnt := (unusable k p s).dir.learnt } } := by
  unfold unusable
  split <;> rfl

/-- A DOWN peer that is touched is UP, and its return is reported (R42). -/
theorem touchPeer_down {s : State} {a : Nat} (h : (s.peer a).presence = .down) :
    touchPeer a s = reportReturn a (s.touched a) := by
  simp [touchPeer, State.touched, h]

/-- A broadcast is passed to the block that acts on its kind, without an ACK (R28). -/
theorem hear_broadcast {s : State} {k : FrameKind} {f : RawFrame} (h : s.hears k f = true) (hk : k.broadcast = true)
    (hh : k ≠ .hello) : hear k f s = passOn f.src.toNat k f.payload (s.touched f.src.toNat) := by
  obtain ⟨-, -, -, -, h4, h5⟩ := hears_parts h
  rw [hear_takes h]
  unfold takePeerFrame
  have hb : ∀ x, bodyOf k f.payload ≠ some (.hello x) := by
    intro x hx
    exact hh (bodyOf_kind hx).symm
  have ha : k ≠ .ack := by intro e; subst e; simp [FrameKind.broadcast] at hk
  cases hx : bodyOf k f.payload with
  | none => simp [hk, ha, touchPeer_up h5, h4]
  | some b =>
    cases b with
    | hello x => exact absurd hx (hb x)
    | _ => simp [hk, ha, touchPeer_up h5, h4]

/-- An ACK addressed to this station is compared with the frame that waits for one (R31). -/
theorem hear_ack {s : State} {f : RawFrame} (h : s.hears .ack f = true) (hm : f.dst.toNat = s.addr) :
    hear .ack f s = takeAck f.src.toNat f.seq.toNat (s.touched f.src.toNat) := by
  obtain ⟨-, -, -, -, h4, h5⟩ := hears_parts h
  rw [hear_takes h]
  unfold takePeerFrame
  have hb : ∀ x, bodyOf .ack f.payload ≠ some (.hello x) := by
    intro x hx
    exact nomatch bodyOf_kind hx
  cases hx : bodyOf .ack f.payload with
  | none => simp [hm, touchPeer_up h5, h4]
  | some b =>
    cases b with
    | hello x => exact absurd hx (hb x)
    | _ => simp [hm, touchPeer_up h5, h4]

/-- A frame heard touches nothing the arm or the display reads. -/
theorem acked_settled (s : State) (f : RawFrame) : (s.acked f).settled = s.settled :=
  settled_congr rfl rfl rfl rfl rfl rfl rfl rfl

theorem touched_settled (s : State) (a : Nat) : (s.touched a).settled = s.settled :=
  settled_congr rfl rfl rfl rfl rfl rfl rfl rfl

theorem queueing_settled (s : State) (d : Option Nat) (b : Body) : (s.queueing d b).settled = s.settled :=
  settled_congr rfl rfl rfl rfl rfl rfl rfl rfl

end Sys2Proof.Machine
end

