-- ==== Sys2Proof/Tests/Slice0.lean ====
section
/-! SUPPORT. Tests: the form checks refuse ill-formed commands, worked examples of the spec come out, and each statement with hypotheses
has a state and operands that meet them. -/

namespace Sys2Proof.Tests

open Sys2Proof Sys2Proof.Machine

set_option maxRecDepth 8000

/-! ### The form checks -/

theorem test_payload_too_long : (Instr.status 0 (List.replicate 241 0)).wellFormed = false := by decide

theorem test_frame_too_long : (Instr.helloReceived ⟨255, 1, 0, List.replicate 25 0, 0⟩).wellFormed = false := by decide

theorem test_strap_address : (Instr.deviceReset ⟨16, 0, false, false⟩ false).wellFormed = false := by decide

theorem test_strap_drives : (Instr.deviceReset ⟨0, 16, false, false⟩ false).wellFormed = false := by decide

theorem test_id_station : (Instr.bidRecordExpiry ⟨16, 0⟩).wellFormed = false := by decide

theorem test_id_sequence : (Instr.sourcingLocal ⟨0, 256⟩).wellFormed = false := by decide

theorem test_peer_address : (Instr.silenceTimerExpiry 16).wellFormed = false := by decide

theorem test_learnt_position : (Instr.learntLifetimeExpiry 256).wellFormed = false := by decide

theorem test_order_number : (Instr.armCompletion 256 .ok none).wellFormed = false := by decide

theorem test_seven_symbols : (Instr.armCompletion 0 .ok (some [1, 2, 3, 4, 5, 6, 7])).wellFormed = false := by decide

theorem test_symbol_range : (Instr.armCompletion 0 .ok (some [64, 2, 3, 4, 5, 6, 7, 8])).wellFormed = false := by decide

theorem test_drive_number : (Instr.ready 8).wellFormed = false := by decide

theorem test_counts_range : (Instr.unloaded 0 ⟨0, 0, 65536, false⟩).wellFormed = false := by decide

theorem test_prompt_number : (Instr.ringExpiry 256).wellFormed = false := by decide

theorem test_no_word_spells_a_command (n w : Nat) : decodeTableWord n w = none := rfl

/-! ### States -/

/-- Station 5 with three drives and both sides fitted, as a device reset leaves it. -/
def fresh : State := State.resetWith ⟨⟨5, 3, true, true⟩, false, false⟩ []

def volA : Volser := ⟨1, 2, 3, 4, 5, 6⟩

def volB : Volser := ⟨7, 8, 9, 10, 11, 12⟩

def homeA : HomeEntry := ⟨volA, 3, true, .home, none⟩

def outB : HomeEntry := ⟨volB, 3, false, .out, some ⟨4, 9⟩⟩

/-- Station 5 in a state, all items configured, with two neighbours and station 9 UP, reel A HOME in slot 7 and B OUT of slot 8. -/
def station (st : StationState) : State := { fresh with
  host := { fresh.host with
    state := st, clock := 1000, clockRuns := true
    settings := { fresh.host.settings with
      park := some ⟨30, 10⟩, cell := some ⟨40, 2⟩, west := some ⟨⟨0, 5⟩, 3⟩, east := some ⟨⟨63, 5⟩, 4⟩ } }
  line := { fresh.line with presence := some 5, peers := [(4, ⟨.up, 9, none⟩), (6, ⟨.up, 9, none⟩), (9, ⟨.up, 9, none⟩)] }
  mnt := { fresh.mnt with drives := fresh.mnt.drives.map fun r => { r with position := some ⟨20, 20⟩, group := some 2 } }
  dir := { fresh.dir with catalog := [(7, homeA), (8, outB)] } }

def running : State := station .running

def quiesced : State := station .quiesced

/-- A frame as another station sends it. -/
def frame (dst : Option Nat) (src seq : Nat) (b : Body) : RawFrame :=
  match frameOfBytes (frameBytes dst src seq b) with
  | some (_, f) => f
  | none => ⟨0, 0, 0, [], 0⟩

/-- A broadcast of station 9. -/
def shout (b : Body) : RawFrame := frame none 9 0 b

/-- A unicast frame of station 9 for station 5. -/
def tell (b : Body) : RawFrame := frame (some 5) 9 77 b

/-- A command answers a next state of which something holds. -/
def after (o : Host.Outcome State Fault Refusal) (p : State → Bool) : Bool :=
  match o with
  | .next t => p t
  | .fault _ | .refused _ => false

/-- What a hypothesis over an absent value asks. -/
theorem of_none {α : Type} {a : Option α} {p : α → Prop} (h : a = none) : ∀ x, a = some x → p x := by
  intro x e; rw [h] at e; cases e

/-- What a hypothesis over a present value asks. -/
theorem of_some {α : Type} {a : Option α} {p : α → Prop} {y : α} (h : a = some y) (hp : p y) : ∀ x, a = some x → p x := by
  intro x e; rw [h] at e; cases e; exact hp

/-- The lanes OPEN. -/
def lanesOpen (s : State) : State := updSide .east (fun r => { r with outbound := .isOpen })
  (updSide .west (fun r => { r with outbound := .isOpen, available := 2, agreed := 3 }) s)

/-- A record, and its drive in a state with it. -/
def holding (m : MountRec) (st : DriveState) (ab : Aboard) (s : State) : State := { s with mnt := { s.mnt with
  mounts := [m], drives := s.mnt.drives.modify m.drive fun r => { r with state := st, mountId := some m.id, aboard := ab } } }

/-! ### Statements over the machine and the host port -/

theorem witness_StepRunsFrontCommand : { fresh with pending := [.reportRead] }.pending = .reportRead :: [] := rfl

theorem witness_EveryStepSettles : running.settled = true ∧ ∃ t, step running = .next t := ⟨by decide, _, rfl⟩

/-- A pick of a class toward drive 1, from slot 7. -/
def pickOf (n cls : Nat) : ArmOrder := { ArmOrder.offer .mountLeg true (.slot 7) (.drive 1) .mount with number := n, cls := some cls }

theorem witness_EveryStepSettles_idle :
    let s := { running with seq := { running.seq with queue := [pickOf 2 1] ++ pickOf 3 0 :: [pickOf 4 0] } }
    s.seq.arm = .idle ∧ s.prm.doorOpen = false ∧ (pickOf 3 0).waitingCell = false ∧ (pickOf 3 0).laneRetry = false
      ∧ (pickOf 3 0).src = .slot 7 ∧ (pickOf 3 0).dst = .drive 1 ∧ (pickOf 2 1).number ≠ 3 ∧ (pickOf 4 0).number ≠ 3
      ∧ { s with seq := { s.seq with arm := .holding, inArm := some (pickOf 3 0) } }.seq.arm = .holding
      ∧ running.seq.queue = [] := by decide

theorem witness_EveryStepSettles_display :
    let p := { Prompt.blank .fetch volA with number := 3, stage := .queued }
    let q := { Prompt.blank .remove volB with number := 4, stage := .queued }
    let s := { running with prm := { running.prm with prompts := [q] ++ p :: [] } }
    s.prm.browsing = false ∧ p.stage ≠ .waitingCell ∧ p.answer = .none ∧ q.answer = .none ∧ running.prm.prompts = []
      ∧ (let t := { s with prm := { s.prm with shown := some 4, browsing := true } }
        t.prm.browsing = true ∧ q ∈ t.prm.prompts ∧ t.prm.shown = some q.number) := by decide

/-- R120: of two picks from a slot the one of the lower class goes first, whatever their age. -/
theorem test_lower_class_first : (settle false { running with seq := { running.seq with
    queue := [pickOf 2 1, pickOf 3 0] } }).seq.inArm = some (pickOf 3 0) := by decide

/-- The report FIFO full. -/
def fullReports : State := { running with host := { running.host with reports := List.replicate 32 (.answer 1 .taken) } }

theorem witness_FifosNeverOverflow : fullReports.fifosFit = true ∧ ∃ t, step fullReports = .next t := ⟨by decide, _, rfl⟩

theorem witness_PlacesNeverOverflow : (lanesOpen running).placesFit = true ∧ (lanesOpen running).creditLaw = true
    ∧ ∃ t, step (lanesOpen running) = .next t := ⟨by decide, by decide, _, rfl⟩

theorem witness_SpoolNeverOverflows : running.spoolLaw = true ∧ ∃ t, step running = .next t := ⟨by decide, _, rfl⟩

/-- A mount record with its drive and its account. -/
def oneMount : State :=
  updAccount 2 (fun a => { a with openMounts := 1 }) (holding (MountRec.make ⟨9, 1⟩ ⟨volA, true, 1, 2, ⟨some 3, 7, true, 3⟩⟩ 1 50)
    .allocated .none running)

theorem witness_SpoolNeverOverflows_agree : oneMount.mountsAgree := by
  refine ⟨⟨by decide, ?_, by decide⟩, fun n => ?_⟩
  · intro d r id hd hr
    match d, hd with
    | 0, hd => cases hd; cases hr
    | 1, hd => cases hd; cases hr; exact ⟨by decide, _, rfl, rfl, rfl⟩
    | 2, hd => cases hd; cases hr
    | d + 3, hd => cases hd
  · by_cases h : n = 2
    · subst h; decide
    · have e : oneMount.account n = Account.zero := by
        simp [oneMount, State.account, updAccount, holding, running, station, fresh, State.resetWith, Accounting.reset, tableSet,
          tablePut, tableGet, Account.zero, h]
      rw [e]
      simp [oneMount, updAccount, holding, running, station, fresh, State.resetWith, MountRec.make, Account.zero, Ne.symm h]

theorem witness_TablesStayOrdered : running.tablesOrdered = true ∧ running.volsersOnce = true ∧ ∃ t, step running = .next t :=
  ⟨by decide, by decide, _, rfl⟩

theorem witness_FrameRoundTrip_broadcast : (Body.locate ⟨15, 255⟩ volA).fits = true := by decide

theorem witness_FrameRoundTrip_unicast :
    (Body.bid ⟨15, 255⟩ 65534 7).fits = true ∧ ∃ a, some 15 = some a ∧ a ≤ 15 := ⟨by decide, 15, rfl, by decide⟩

theorem witness_DeviceResetAndPin_held : { fresh with pins := { fresh.pins with resetHeld := true } }.pins.resetHeld = true
    ∧ (∀ p h, Instr.doneKey ≠ .deviceReset p h) ∧ Instr.doneKey ≠ .resetPinRelease ∧ ∀ o, Instr.doneKey ≠ .doorSwitch o := by
  simp

theorem witness_DeviceResetAndPin_command : fresh.pins.resetHeld = false ∧ fresh.host.commands = [] := by decide

theorem witness_RecordPort : running.settled = true ∧ running.pins.resetHeld = false ∧ running.host.reports = []
    ∧ fullReports.host.reports = .answer 1 .taken :: List.replicate 31 (.answer 1 .taken) := by decide

/-- Eight records in the command FIFO: the next is refused. -/
theorem test_ninth_record_rejected :
    after (exec (.commandWrite ⟨6, 9, [1]⟩) { running with host := { running.host with
      commands := List.replicate 8 ⟨6, 1, [1]⟩ } }) (fun t => t.host.lastWrite = .rejected && t.host.commands.length = 8) := by
  decide

theorem witness_GrantTakesNextInRotation : running.host.pointer ≤ 8 ∧ { running with
    host := { running.host with pointer := 8 } }.host.pointer ≤ 8 := by decide

/-- A drive's notice waits; the requester it belongs to is granted a place. -/
theorem witness_GrantMovesOldestNotice_drive :
    let n := Notice.driveProtocol 0 .ready none
    let s := { running with mnt := { running.mnt with notices := [n] } }
    s.settled = true ∧ s.pins.resetHeld = false ∧ s.resetAtHead = false ∧ s.grantee = some 3 ∧ s.mnt.notices = n :: [] := by
  decide

theorem witness_GrantMovesOldestNotice_request :
    let n := Notice.mountResult ⟨5, 0⟩ 1 volA .cancelled
    let s := { running with neg := { running.neg with notices := [n] } }
    s.settled = true ∧ s.resetAtHead = false ∧ s.grantee = some 2 ∧ s.neg.notices = n :: [] := by decide

theorem witness_GrantMovesOldestNotice_arm :
    let n := Notice.armProtocol 0 .ok
    let s := { running with seq := { running.seq with notices := [n] } }
    s.settled = true ∧ s.resetAtHead = false ∧ s.grantee = some 4 ∧ s.seq.notices = n :: [] := by decide

theorem witness_GrantMovesOldestNotice_lane :
    let n := Notice.laneEmpty .west volA ⟨5, 0⟩ 1 false
    let s := { running with lane := { running.lane with notices := [n] } }
    s.settled = true ∧ s.resetAtHead = false ∧ s.grantee = some 5 ∧ s.lane.notices = n :: [] := by decide

theorem witness_GrantMovesOldestNotice_wear :
    let n := Notice.wear 7 volA .retired none 1 1
    let s := { running with wear := { running.wear with notices := [n] } }
    s.settled = true ∧ s.resetAtHead = false ∧ s.grantee = some 6 ∧ s.wear.notices = n :: [] := by decide

theorem witness_GrantMovesOldestNotice_account :
    let n := Notice.drainWanted .withdrawn 480 16
    let s := { running with acct := { running.acct with notices := [n] } }
    s.settled = true ∧ s.resetAtHead = false ∧ s.grantee = some 7 ∧ s.acct.notices = n :: [] := by decide

theorem witness_GrantMovesOldestNotice_port :
    let n := Notice.addressConflict 5
    let s := { running with host := { running.host with notices := [n] } }
    s.settled = true ∧ s.resetAtHead = false ∧ s.grantee = some 8 ∧ s.host.notices = n :: [] ∧ running.grantee = none := by decide

/-- Commands wait in the FIFO, the last of them written with TAKEN. -/
def commanded (l : List CmdRec) : State := { running with host := { running.host with commands := l, lastWrite := .taken } }

theorem witness_GrantMovesOldestNotice_reset : (commanded [⟨5, 9, []⟩]).pins.resetHeld = false
    ∧ (commanded [⟨5, 9, []⟩]).host.commands = ⟨5, 9, []⟩ :: [] := by decide

theorem witness_GrantMovesOldestNotice_taker : (commanded [⟨21, 9, []⟩]).settled = true ∧ (commanded [⟨21, 9, []⟩]).resetAtHead = false
    ∧ (commanded [⟨21, 9, []⟩]).grantee = some 1 ∧ 20 < (21 : Byte).toNat ∧ (0 : Byte).toNat = 0
    ∧ (commanded [⟨7, 9, []⟩]).grantee = some 1 ∧ (commanded [⟨7, 9, []⟩]).settled = true ∧ formFits 7 [] = false
    ∧ (commanded [⟨2, 9, []⟩]).grantee = some 1 ∧ (commanded [⟨2, 9, []⟩]).settled = true ∧ formFits 2 [] = true
    ∧ takenIn 2 .running = false ∧ (commanded [⟨3, 9, []⟩]).grantee = some 1 ∧ (commanded [⟨3, 9, []⟩]).settled = true
    ∧ hostRow (.quiesce 9 []) = some (3, 9, []) ∧ (commanded [⟨3, 9, []⟩]).host.lastWrite = .taken
    ∧ (commanded []).ready = true := by decide

theorem witness_BadFormAndWrongState : hostRow (.mount 1 []) = some (7, 1, []) ∧ hostRow (.start 1 []) = some (2, 1, [])
    ∧ running.settled = true ∧ running.ready = true ∧ formFits 7 [] = false ∧ formFits 2 [] = true
    ∧ takenIn 2 running.host.state = false := by decide

theorem witness_ConfigureQuantities : fresh.settled = true ∧ fresh.ready = true ∧ fresh.host.state = .config := by decide

theorem witness_ConfigurePlaces : fresh.settled = true ∧ fresh.ready = true ∧ (63 : Byte).toNat ≤ 63
    ∧ 1 ≤ (6 : Byte).toNat ∧ (6 : Byte).toNat ≤ 6 := by decide

theorem witness_ConfigureTables_marks : 16 ≤ num16 1 224 ∧ num16 1 224 ≤ 480 ∧ num16 1 208 ≤ num16 1 224 - 16 := by decide

theorem witness_ConfigureTables_wear : (16 : Byte).toNat ≤ 16 ∧ num16 39 16 ≤ 10000 ∧ 1 ≤ (3 : Byte).toNat ∧ (3 : Byte).toNat ≤ 3 := by
  decide

theorem witness_ConfigureTables_timer : (∃ lo hi, timerRange 1 = some (lo, hi) ∧ lo ≤ hi) ∧ timerRange 14 = none
    ∧ Keyword.ofLetters 0 0 = none := ⟨⟨_, _, rfl, by decide⟩, by decide, by decide⟩

theorem witness_Configure_clamped : fresh.fitted .west = true ∧ fresh.fitted .east = true ∧ 63 < (64 : Byte).toNat
    ∧ (2 : Byte).toNat < fresh.mnt.drives.length ∧ (15 : Byte).toNat ≤ 15 ∧ (0 : Byte).toNat = 0 ∧ 6 < (7 : Byte).toNat
    ∧ num16 1 225 ≠ max 16 (min (num16 1 225) 480) ∧ (17 : Byte).toNat ≠ max 1 (min (17 : Byte).toNat 16)
    ∧ timerRange (1 : Byte).toNat = some (1, 30) ∧ num16 0 0 < 1 ∧ 30 < num16 0 31 := by decide

/-- R198 and R199: a place off the grid and a timer above its range are set to the nearer end and answered CLAMPED. -/
theorem test_clamped :
    after (exec (.configure 4 [13, 31, 4, 2, 9, 64, 3]) fresh) (fun t =>
      (t.mnt.drives[2]?.map (·.position)) = some (some ⟨63, 3⟩) && t.host.reports = [.answer 4 (.clamped [63, 3])])
    ∧ after (exec (.configure 4 [29, 22, 3, 1, 0, 31]) fresh) (fun t =>
      t.timers.presence = 30 && t.host.reports = [.answer 4 (.clamped [30])]) := by decide

/-- Every item configured, in CONFIG. -/
def configured : State := { station .config with line := fresh.line }

theorem witness_StartStation : configured.settled = true ∧ configured.ready = true ∧ configured.itemsComplete = true
    ∧ configured.line.queue = [] ∧ configured.line.waiting = [] ∧ fresh.itemsComplete = false := by decide

theorem witness_QuiesceAndResume : running.ready = true ∧ running.host.state = .running ∧ quiesced.settled = true
    ∧ quiesced.ready = true ∧ quiesced.host.state = .quiesced := by decide

theorem witness_ReadingCommandsOnlyAnswer : running.settled = true ∧ running.ready = true ∧ num16 15 255 < 4096
    ∧ (volserOf 35 35 35 35 35 35).wellFormed = true := by decide

/-! ### Statements over the host commands -/

theorem witness_MountStarts_unknown : running.settled = true ∧ running.ready = true ∧ running.lineRoom = true
    ∧ specOf 1 41 = some (.drive 41) ∧ flagOf 1 = some true ∧ (3 : Byte).toNat ≤ 3
    ∧ (volserOf 35 0 35 0 35 0).wellFormed = true ∧ (running.neg.origins.any fun o => o.volser = volserOf 35 0 35 0 35 0) = false
    ∧ running.neg.origins.length < 16 ∧ running.lookup (volserOf 35 0 35 0 35 0) = .unknown := by decide

theorem witness_MountStarts_home : quiesced.settled = true ∧ quiesced.ready = true ∧ quiesced.lineRoom = true
    ∧ quiesced.host.state = .quiesced ∧ running.lookup volA = .home 7 homeA ∧ homeA.state = .home
    ∧ volserOf 1 2 3 4 5 6 = volA ∧ (running.neg.origins.any fun o => o.volser = volA) = false
    ∧ running.qualifies ⟨5, 1⟩ (.group 2) ⟨some 5, 7, true, 3⟩ = some 0
    ∧ quiesced.qualifies ⟨5, 1⟩ (.group 2) ⟨some 5, 7, true, 3⟩ = none := by decide

/-- Reels that other stations hold: 35-0-35-0-35-0 HOME at station 9, and 0-35-0-35-0-35 OUT there. -/
def knowing (s : State) : State := { s with dir := { s.dir with
  learnt := [(0, ⟨⟨35, 0, 35, 0, 35, 0⟩, 9, 8, true, 3, .home, 600⟩), (1, ⟨⟨0, 35, 0, 35, 0, 35⟩, 9, 9, true, 3, .out, 600⟩)] } }

theorem witness_MountStarts_learnt : (knowing running).settled = true ∧ (knowing running).ready = true
    ∧ (knowing running).lineRoom = true
    ∧ (knowing running).lookup (volserOf 35 0 35 0 35 0) = .learnt ⟨⟨35, 0, 35, 0, 35, 0⟩, 9, 8, true, 3, .home, 600⟩
    ∧ (knowing running).lookup (volserOf 0 35 0 35 0 35) = .learnt ⟨⟨0, 35, 0, 35, 0, 35⟩, 9, 9, true, 3, .out, 600⟩ := by decide

theorem witness_MountStarts_out : running.lookup volB = .home 8 outB ∧ outB.state.ending = some .inUse
    ∧ volserOf 7 8 9 10 11 12 = volB := by decide

/-- A request for A in LOCATING, its first window running. -/
def request : OriginRec := { OriginRec.make ⟨5, 1⟩ volA (.group 2) true 1 2 9 with locateAttempts := 1, locateWindow := some 3 }

def asking (o : OriginRec) (s : State) : State := { s with neg := { s.neg with origins := [o] } }

theorem witness_MountStarts_duplicate : (asking request running).settled = true ∧ (asking request running).ready = true
    ∧ ((asking request running).neg.origins.any fun o => o.volser = volA) = true := by decide

theorem witness_MountStarts_full :
    let s := { running with neg := { running.neg with origins := List.replicate 16 request } }
    s.settled = true ∧ s.ready = true ∧ s.lineRoom = true ∧ (s.neg.origins.any fun o => o.volser = volB) = false
      ∧ 16 ≤ s.neg.origins.length := by decide

theorem witness_CancelByState_none : running.settled = true ∧ running.ready = true ∧ running.lineRoom = true
    ∧ running.origin (idOf 5 1) = none := by decide

/-- The request awarded to station 9. -/
def awarded : OriginRec := { request with
  state := .awarded, locateWindow := none, awardee := some 9, watch := some 0, loc := some ⟨some 3, 9, true, 2⟩ }

theorem witness_CancelByState_each : (asking request running).settled = true ∧ (asking request running).ready = true
    ∧ (asking request running).lineRoom = true ∧ (asking request running).origin (idOf 5 1) = some request
    ∧ request.state = .locating ∧ (asking awarded running).origin (idOf 5 1) = some awarded ∧ awarded.state = .awarded
    ∧ awarded.awardee = some 9 ∧ 9 ≠ (asking awarded running).addr
    ∧ (let o := { awarded with state := .awarding }; (asking o running).origin (idOf 5 1) = some o)
    ∧ (let o := { awarded with state := .cancelling }; (asking o running).origin (idOf 5 1) = some o) := by decide

/-- A record of this station's own request, for a reel of station 3, with drive 1. -/
def ownRecord : MountRec := MountRec.make ⟨5, 1⟩ ⟨volA, true, 1, 2, ⟨some 3, 9, true, 2⟩⟩ 1 50

theorem witness_CancelByState_own :
    let o := { awarded with awardee := some 5 }
    let m := { ownRecord with reachedMounted := true, resultSent := .mounted, stage := .mounted }
    let s := fun m => holding m .allocated .none (asking o running)
    (s ownRecord).settled = true ∧ (s ownRecord).ready = true ∧ (s ownRecord).lineRoom = true
      ∧ (s ownRecord).origin (idOf 5 1) = some o ∧ o.awardee = some (s ownRecord).addr
      ∧ (s ownRecord).mount (idOf 5 1) = some ownRecord ∧ ownRecord.originator = (s ownRecord).addr
      ∧ ownRecord.resultSent = .none ∧ ownRecord.failure = none ∧ ownRecord.stage = .sourcing ∧ ownRecord.turningBack = false
      ∧ ownRecord.driveHeld = true ∧ (s ownRecord).prm.prompts = [] ∧ ownRecord.home = some 3 ∧ 3 ≠ (s ownRecord).addr
      ∧ (s m).settled = true ∧ (s m).ready = true ∧ (s m).origin (idOf 5 1) = some o ∧ (s m).mount (idOf 5 1) = some m
      ∧ m.resultSent ≠ .failed ∧ m.failure ≠ some .revoked ∧ ownRecord.cancelPending = false := by decide

theorem witness_DirWriteWritesSlot_free : running.settled = true ∧ running.ready = true ∧ flagOf 0 = some false
    ∧ num16 15 255 < 4096 ∧ (15 : Byte).toNat ≤ 15 ∧ running.entry (num16 15 255) = none
    ∧ running.homeOf volA = some (7, homeA) ∧ homeA.state = .home ∧ running.movedFrom (num16 15 255) volA = some 7 := by decide

/-- Slots 7 and 8 both busy. -/
def bothOut : State := { running with dir := { running.dir with
  catalog := [(7, { homeA with state := .out, mountId := some ⟨4, 8⟩ }), (8, outB)] } }

theorem witness_DirWriteWritesSlot_busy : running.entry 8 = some outB ∧ outB.state = .out ∧ running.homeOf volA = some (7, homeA)
    ∧ running.homeOf volB = some (8, outB) ∧ running.entry 9 = none ∧ bothOut.settled = true ∧ bothOut.ready = true
    ∧ bothOut.entry 8 = some outB ∧ bothOut.homeOf volA = some (7, { homeA with state := .out, mountId := some ⟨4, 8⟩ }) := by decide

/-- Both slots are busy: the lower is named (R19). -/
theorem test_busy_names_the_lower :
    after (exec (.dirWrite 4 [0, 8, 1, 2, 3, 4, 5, 6, 3, 1]) bothOut) (fun t => t.host.reports = [.answer 4 (.dirBusy 7)]) := by decide

theorem witness_DirDeleteAndClear : running.settled = true ∧ running.ready = true ∧ running.host.state = .running
    ∧ num16 15 255 < 4096 ∧ volA.wellFormed = true ∧ (15 : Byte).toNat ≤ 15 := by decide

theorem witness_DirDeleteAndClear_state : (2 : Byte) ∉ [(1 : Byte), 4, 5] ∧ (0 : Byte) ∉ [(1 : Byte), 4, 5] := by decide

/-- R23: DIR CLEAR of state HOME empties the HOME entries only. -/
theorem test_clear_home : after (exec (.dirClear 4 [2, 1]) running) (fun t =>
    t.dir.catalog = [(8, outB)] && t.host.reports = [.answer 4 (.cleared 1)]) := by decide

theorem witness_VaryDriveAndLane : running.settled = true ∧ running.ready = true ∧ running.host.state ≠ .conflict
    ∧ (running.drive (2 : Byte).toNat).isSome = true ∧ running.fitted .west = true ∧ running.fitted .east = true := by decide

theorem witness_AuditStartsAndSteps_start : running.settled = true ∧ running.ready = true ∧ num16 0 0 ≤ num16 15 255
    ∧ num16 15 255 < 4096 := by decide

/-- An audit from slot 7 to slot 8 stands at a slot. -/
def auditing (n : Nat) : State := { running with seq := { running.seq with audit := ⟨true, 7, 9, n, 0, 0, 0, 0⟩ } }

theorem witness_AuditStartsAndSteps_skip : (auditing 8).settled = true ∧ (auditing 8).pins.resetHeld = false
    ∧ (auditing 8).auditOut = false ∧ (auditing 8).auditNoticeWaits = false ∧ (auditing 8).entry 8 = some outB
    ∧ outB.state = .out ∧ 8 < (auditing 8).seq.audit.last := by decide

theorem witness_AuditStartsAndSteps_read : (auditing 9).settled = true ∧ (auditing 9).auditOut = false
    ∧ (auditing 9).auditNoticeWaits = false ∧ (∀ e, (auditing 9).entry 9 = some e → e.state ≠ .out)
    ∧ (auditing 9).seq.audit.next ≤ (auditing 9).seq.audit.last ∧ (auditing 9).orderRoom = true :=
  ⟨by decide, by decide, by decide, of_none (by decide), by decide, by decide⟩

theorem witness_AuditStartsAndSteps_waits : (auditing 9).seq.arm ≠ .fault
    ∧ (let s := { auditing 9 with seq := { (auditing 9).seq with arm := .fault } }; s.settled = true ∧ s.seq.arm = .fault)
    ∧ running.seq.audit.running = false := by decide

/-- The audit's last read in the arm, with the audit past its last slot. -/
def lastRead (k : Nat) (faulted : Bool) : State :=
  let s := auditing 10
  { s with seq := { s.seq with arm := .busy, inArm := some { auditRead k with faultTaken := faulted } } }

theorem witness_AuditStartsAndSteps_ends :
    let s := { running with seq := { running.seq with audit := ⟨true, 7, 8, 8, 0, 0, 0, 0⟩ } }
    s.settled = true ∧ s.auditOut = false ∧ s.auditNoticeWaits = false ∧ s.entry 8 = some outB ∧ outB.state = .out
      ∧ s.seq.audit.next = s.seq.audit.last
      ∧ (lastRead 7 true).settled = true ∧ (lastRead 7 true).seq.audit.last < (lastRead 7 true).seq.audit.next
      ∧ (auditRead 7).form = .readOnly ∧ (auditRead 7).purpose = .audit ∧ (auditRead 7).queuedBy = .audit
      ∧ (auditRead 7).srcPos = none ∧ (auditRead 7).mountId = none ∧ (lastRead 7 true).seq.queue = []
      ∧ (lastRead 7 true).seq.waiting = [] ∧ (lastRead 7 true).entry 7 = some homeA ∧ homeA.state = .home
      ∧ (lastRead 9 false).settled = true ∧ (lastRead 9 false).entry 9 = none := by decide

/-- R133: the last read finds its slot empty, and the audit ends with its counts. -/
theorem test_audit_ends : after (exec (.armCompletion 0 .sourceEmpty none) (lastRead 9 false)) (fun t =>
    t.seq.notices = [.auditDone 7 9 1 0 0 0] && !t.seq.audit.running) := by decide

/-- An order to the cell. -/
def cellPick : ArmOrder := { ArmOrder.offer .cell false (.slot 7) .cell .wear with volser := some volA, dstPos := some 0 }

/-- The arm in a state with an order in its position. -/
def arm (a : ArmState) (o : Option ArmOrder) (s : State) : State := { s with seq := { s.seq with arm := a, inArm := o } }

theorem witness_ArmResumeLeavesFault : running.settled = true ∧ running.ready = true ∧ running.host.state ≠ .config
    ∧ running.seq.arm ≠ .fault ∧ (arm .fault (some cellPick) running).settled = true
    ∧ (arm .fault (some cellPick) running).ready = true ∧ (arm .fault none running).settled = true
    ∧ cellPick.touchesCell = true ∧ (arm .fault (some cellPick) running).prm.doorOpen = false
    ∧ (let s := { arm .fault (some cellPick) running with prm := { running.prm with doorOpen := true } }
      s.settled = true ∧ s.ready = true ∧ s.seq.arm = .fault ∧ s.prm.doorOpen = true) := by decide

theorem witness_DrainMovesOldestRecords : running.settled = true ∧ running.ready = true := by decide

theorem witness_AccountClearKeepsOpenMounts : running.settled = true ∧ running.ready = true ∧ running.tablesOrdered = true
    ∧ (3 : Byte) ≠ 1 ∧ (3 : Byte) ≠ 2 := by
  decide

/-! ### Statements over the line -/

theorem witness_ClockTickMovesSeconds : running.settled = true ∧ running.pins.resetHeld = false := by decide

/-- A HELLO of a neighbour, whose facing capacities are 3 and 4 and whose clock reads 200. -/
def greeting : HelloFields := ⟨200, 2, false, false, 3, 4, 1, 0⟩

def ownHello : RawFrame := frame none 5 0 (.hello greeting)

theorem witness_OwnAddressHelloConflicts :
    let w := fun (dst : Option Nat) (b : Body) => (⟨dst, b, false, 0, false⟩ : TxFrame)
    let s := { running with line := { running.line with queue := List.replicate 16 (w none (.hello greeting)), waiting :=
      [w none (.locate ⟨5, 1⟩ volA), w (some 9) (.fetch ⟨9, 1⟩ volA 7 5 3), w none (.promptNotice 3 .fetch volA)] } }
    s.settled = true ∧ s.pins.resetHeld = false ∧ s.line.phase ≠ .sending ∧ framePasses .hello ownHello = true
      ∧ ownHello.src.toNat = s.addr ∧ s.line.waiting ≠ [] ∧ s.host.state ≠ .conflict
      ∧ (station .conflict).settled = true ∧ (station .conflict).host.state = .conflict := by decide

/-- R43: a waiting LOCATE is discarded, and its window starts. -/
theorem test_conflict_starts_the_window :
    let s := { asking { request with locateWindow := none } running with line := { running.line with
      waiting := [⟨none, .locate ⟨5, 1⟩ volA, false, 0, false⟩] } }
    after (exec (.ownAddressHello ownHello) s) (fun t =>
      t.line.waiting = [] && t.neg.origins.map (·.locateWindow) = [some 300]) := by decide

theorem witness_FramesThatAreNotTaken : framePasses .bid (shout (.locate ⟨9, 1⟩ volA)) = false
    ∧ (shout (.locate ⟨9, 1⟩ volA)).src.toNat ≠ fresh.addr ∧ fresh.host.state = .config ∧ frameOfBytes [] = none
    ∧ frameOfBytes (frameBytes none 9 0 (.locate ⟨9, 1⟩ volA)) = some (.locate, shout (.locate ⟨9, 1⟩ volA)) := by decide

def duplicated : State := { running with line := { running.line with dedupe := [(9, 77)] } }

theorem witness_DuplicatesAndOthersFrames : duplicated.settled = true ∧ duplicated.hears .bid (tell (.bid ⟨5, 1⟩ 3 4)) = true
    ∧ (tell (.bid ⟨5, 1⟩ 3 4)).dst.toNat = duplicated.addr ∧ tableGet duplicated.line.dedupe 9 = some 77
    ∧ running.hears .bid (frame (some 6) 9 77 (.bid ⟨5, 1⟩ 3 4)) = true := by decide

theorem witness_HelloRecordsAndAgrees_peer : running.hears .hello (shout (.hello greeting)) = true
    ∧ helloOf (shout (.hello greeting)).payload = some greeting ∧ (running.peer 9).hello = none
    ∧ running.sideOf 9 = none := by decide

theorem witness_HelloRecordsAndAgrees_neighbour : running.hears .hello (frame none 4 0 (.hello greeting)) = true
    ∧ (running.peer 4).hello = none ∧ running.sideOf 4 = some .west ∧ (running.side .west).outbound = .agreeing
    ∧ (running.side .west).holders = [] ∧ (running.side .west).requests = [] ∧ 1 ≤ (greeting.facing .west).1 := by decide

/-- A peer's last HELLO gave uptime 201: the greeting shows a restart. -/
def greeted (a : Nat) (s : State) : State := setPeer a ⟨.up, 9, some { greeting with uptime := 201 }⟩ s

theorem witness_HelloRecordsAndAgrees_restart : (greeted 9 running).hears .hello (shout (.hello greeting)) = true
    ∧ (greeted 9 running).settled = true ∧ ((greeted 9 running).peer 9).hello = some { greeting with uptime := 201 }
    ∧ 200 < 201 ∧ (greeted 9 running).neg.origins = [] ∧ (greeted 9 running).sideOf 9 = none
    ∧ (greeted 4 running).hears .hello (frame none 4 0 (.hello greeting)) = true ∧ (greeted 4 running).sideOf 4 = some .west
    ∧ ((greeted 4 running).peer 4).hello = some { greeting with uptime := 201 }
    ∧ ((greeted 4 running).side .west).holders = [] ∧ ((greeted 4 running).side .west).requests = []
    ∧ ((greeted 4 running).side .west).undelivered = [] ∧ 1 ≤ (greeting.facing .west).1
    ∧ ({ greeting with eastCapacity := 0 }.facing .west).1 = 0
    ∧ (greeted 9 (asking awarded running)).neg.origins = [] ++ awarded :: [] ∧ awarded.awardee = some 9
    ∧ awarded.state = .awarded ∧ awarded.ended = none := by decide

theorem witness_HelloRecordsAndAgrees_return :
    let s := updSide .west (fun r => { r with outbound := .down, undelivered := [⟨volA, ⟨9, 1⟩, .toDrive, some 4, true, 3, 1, none⟩]
                                              unreported := 2 }) (setPeer 4 ⟨.down, 0, some greeting⟩ running)
    let f := frame none 4 0 (.hello greeting)
    s.settled = true ∧ s.pins.resetHeld = false ∧ s.line.phase ≠ .sending ∧ framePasses .hello f = true ∧ s.onLine = true
      ∧ helloOf f.payload = some greeting ∧ (s.peer 4).hello = some greeting ∧ (s.peer 4).presence = .down
      ∧ s.sideOf 4 = some .west ∧ (s.side .west).outbound = .down ∧ (s.side .west).downFromAgreeing = false
      ∧ (s.side .west).requests = [] ∧ s.line.waiting = [] ∧ s.line.queue = []
      ∧ s.line.queue.length + (s.side .west).undelivered.length < 16 := by decide

theorem witness_LocateAndHolding_locate : running.overhears (shout (.locate ⟨9, 1⟩ volA)) (.locate ⟨9, 1⟩ volA) = true
    ∧ running.homeOf volA = some (7, homeA) ∧ running.lineRoom = true ∧ running.homeOf ⟨35, 35, 35, 35, 35, 35⟩ = none := by decide

theorem witness_LocateAndHolding_learn :
    let b := Body.holding ⟨3, 1⟩ ⟨35, 0, 35, 0, 35, 0⟩ 4095 15 true .home
    let f := frame (some 3) 9 1 b
    running.overhears f b = true ∧ f.dst.toNat ≠ running.addr ∧ running.homeOf ⟨35, 0, 35, 0, 35, 0⟩ = none := by decide

theorem witness_LocateAndHolding_end :
    let b := Body.holding ⟨5, 1⟩ ⟨35, 0, 35, 0, 35, 0⟩ 7 3 true .missing
    let o := { request with volser := ⟨35, 0, 35, 0, 35, 0⟩ }
    (asking o running).settled = true ∧ (asking o running).accepts (tell b) b = true
      ∧ (asking o running).origin ⟨5, 1⟩ = some o ∧ o.state = .locating ∧ ReelState.missing.ending = some .missing
      ∧ (asking o running).homeOf o.volser = none ∧ running.accepts (tell b) b = true ∧ running.origin ⟨5, 1⟩ = none := by decide

theorem witness_LocateAndHolding_offer :
    let b := Body.holding ⟨5, 1⟩ ⟨35, 0, 35, 0, 35, 0⟩ 7 3 true .home
    let o := { request with volser := ⟨35, 0, 35, 0, 35, 0⟩ }
    let s := asking o (lanesOpen running)
    s.settled = true ∧ s.accepts (tell b) b = true ∧ s.origin ⟨5, 1⟩ = some o ∧ o.state = .locating ∧ 5 = s.addr
      ∧ s.lineRoom = true ∧ s.qualifies ⟨5, 1⟩ o.spec ⟨some 9, 7, true, 3⟩ = some 0
      ∧ running.qualifies ⟨5, 1⟩ o.spec ⟨some 9, 7, true, 3⟩ = none := by decide

def terms : RequestTerms := ⟨volA, true, 1, 2, ⟨some 9, 8, false, 3⟩⟩

theorem witness_OfferIsBidFor : (lanesOpen running).settled = true
    ∧ (lanesOpen running).overhears (shout (.offer ⟨9, 1⟩ terms (.group 2))) (.offer ⟨9, 1⟩ terms (.group 2)) = true
    ∧ 9 ≠ (lanesOpen running).addr ∧ (lanesOpen running).qualifies ⟨9, 1⟩ (.group 2) terms.loc = some 0
    ∧ (lanesOpen running).lineRoom = true ∧ running.qualifies ⟨9, 1⟩ (.group 2) terms.loc = none := by decide

theorem witness_BidEntersInOrder :
    let o := { request with state := .offered, bids := [⟨3, 10, 1⟩] }
    (asking o running).accepts (tell (.bid ⟨5, 1⟩ 65534 7)) (.bid ⟨5, 1⟩ 65534 7) = true
      ∧ (asking o running).origin ⟨5, 1⟩ = some o := by decide

theorem witness_BidEntersInOrder_late : running.accepts (tell (.bid ⟨5, 1⟩ 65534 7)) (.bid ⟨5, 1⟩ 65534 7) = true
    ∧ ∀ o, running.origin ⟨5, 1⟩ = some o → o.state ≠ .offered := ⟨by decide, of_none (by decide)⟩

/-- A record of the mount 9/1 that waits at this station with drive 1. -/
def record : MountRec := MountRec.make ⟨9, 1⟩ ⟨volA, true, 1, 2, ⟨some 3, 7, true, 3⟩⟩ 1 50

theorem witness_AwardIsChecked_accept : running.accepts (tell (.award ⟨9, 1⟩ terms 1)) (.award ⟨9, 1⟩ terms 1) = true
    ∧ running.settled = true ∧ running.line.waiting = [] ∧ running.line.queue.length < 15 ∧ running.host.state = .running
    ∧ running.seq.arm ≠ .fault
    ∧ (running.mnt.drives[1]?.map fun r => (r.state, r.variedOff)) = some (.free, false)
    ∧ running.acct.spool.length + running.mnt.mounts.length < 496 ∧ running.mount ⟨9, 1⟩ = none ∧ running.mnt.mounts.length < 16
    ∧ terms.loc.station = some 9 := by decide

theorem witness_AwardIsChecked_decline : quiesced.accepts (tell (.award ⟨9, 1⟩ terms 1)) (.award ⟨9, 1⟩ terms 1) = true
    ∧ quiesced.host.state ≠ .running
    ∧ (let s := holding { record with drive := 0 } .allocated .none running
      s.accepts (tell (.award ⟨9, 1⟩ terms 1)) (.award ⟨9, 1⟩ terms 1) = true ∧ s.mount ⟨9, 1⟩ ≠ none)
    ∧ (let s := { running with mnt := { running.mnt with mounts := List.replicate 16 { record with id := ⟨4, 9⟩ } } }
      s.accepts (tell (.award ⟨9, 1⟩ terms 1)) (.award ⟨9, 1⟩ terms 1) = true ∧ s.mount ⟨9, 1⟩ = none ∧ s.mnt.mounts.length = 16) := by
  decide

theorem witness_AwardIsChecked_sourcing :
    let here := { terms with loc := ⟨some 5, 7, true, 3⟩ }
    let onShelf := { terms with loc := ⟨none, 0, false, 0⟩ }
    let s := { running with prm := { running.prm with postings := [Prompt.blank .fetch volB] } }
    running.accepts (tell (.award ⟨9, 1⟩ here 1)) (.award ⟨9, 1⟩ here 1) = true ∧ here.loc.station = some running.addr
      ∧ running.accepts (tell (.award ⟨9, 1⟩ onShelf 1)) (.award ⟨9, 1⟩ onShelf 1) = true ∧ onShelf.loc.station = none
      ∧ running.openPrompts < 20 ∧ running.prm.postings = [] ∧ running.prm.waiters = [] ∧ running.emptyCell = some 0
      ∧ running.prm.prompts.length < 255 ∧ s.settled = true
      ∧ s.accepts (tell (.award ⟨9, 1⟩ onShelf 1)) (.award ⟨9, 1⟩ onShelf 1) = true ∧ s.prm.postings ≠ [] := by decide

theorem witness_AwardIsChecked_own : running.accepts (tell (.award ⟨5, 8⟩ terms 1)) (.award ⟨5, 8⟩ terms 1) = true
    ∧ running.origin ⟨5, 8⟩ = none ∧ running.prm.prompts = [] ∧ running.mount ⟨5, 8⟩ = none ∧ 5 = running.addr := by decide

/-- R62: an AWARD with this station's own id for a reel of station 9 is accepted and revoked before any FETCH: no frame is queued. -/
theorem test_award_of_own_id : after (exec (.awardReceived (tell (.award ⟨5, 8⟩ terms 1))) running)
    (fun t => t.mount ⟨5, 8⟩ = none && t.line.queue.isEmpty && t.acct.spool.length == 1) = true := by decide

/-- This station accepts an award of drive 1, and with its arm in FAULT it does not. -/
theorem witness_mayAccept : running.mayAccept ⟨5, 1⟩ 1 ∧ ¬ (arm .fault none running).mayAccept ⟨5, 1⟩ 1 :=
  ⟨⟨by decide, ⟨_, rfl, by decide, by decide⟩, by decide, by decide, by decide⟩, fun h => absurd h.1.2 (by decide)⟩

/-- The request in AWARDING, station 9 at the head of its bid list. -/
def awarding : OriginRec := { awarded with
  state := .awarding, watch := none, awardAnswer := some 3, bids := [⟨9, 7, 1⟩, ⟨6, 12, 2⟩], awardsMade := 2 }

theorem witness_AcceptAndDecline : (asking awarding running).accepts (tell (.accept ⟨5, 1⟩ 1)) (.accept ⟨5, 1⟩ 1) = true
    ∧ (asking awarding running).accepts (tell (.decline ⟨5, 1⟩ .spool)) (.decline ⟨5, 1⟩ .spool) = true
    ∧ (asking awarding running).origin ⟨5, 1⟩ = some awarding ∧ awarding.awardee = some 9
    ∧ awarding.bids = ⟨9, 7, 1⟩ :: ⟨6, 12, 2⟩ :: [] ∧ awarding.awardsMade < 3 ∧ 6 ≠ (asking awarding running).addr
    ∧ (asking awarding running).lineRoom = true := by decide

theorem witness_AcceptAndDecline_own :
    let o := { awarding with bids := [⟨9, 7, 1⟩, ⟨5, 12, 1⟩, ⟨6, 20, 2⟩], awardsMade := 1 }
    (asking o running).accepts (tell (.decline ⟨5, 1⟩ .spool)) (.decline ⟨5, 1⟩ .spool) = true
      ∧ (asking o running).origin ⟨5, 1⟩ = some o ∧ o.awardee = some 9 ∧ o.bids = ⟨9, 7, 1⟩ :: ⟨5, 12, 1⟩ :: [⟨6, 20, 2⟩]
      ∧ o.awardsMade + 1 < 3 ∧ 5 = (asking o running).addr ∧ 6 ≠ (asking o running).addr ∧ o.terms.loc.station = some 3
      ∧ (asking o (arm .fault none running)).settled = true := by decide

theorem witness_AcceptAndDecline_late : running.accepts (tell (.accept ⟨5, 1⟩ 1)) (.accept ⟨5, 1⟩ 1) = true
    ∧ running.accepts (tell (.decline ⟨5, 1⟩ .spool)) (.decline ⟨5, 1⟩ .spool) = true
    ∧ ∀ o, running.origin ⟨5, 1⟩ = some o → o.state ≠ .awarding ∨ o.awardee ≠ some 9 :=
  ⟨by decide, by decide, of_none (by decide)⟩

/-- A record of the shelf. -/
def shelf : MountRec := { record with home := none }

theorem witness_RevokeAndCancel_revoke : (holding shelf .allocated .none running).settled = true
    ∧ (holding shelf .allocated .none running).accepts (tell (.revoke ⟨9, 1⟩)) (.revoke ⟨9, 1⟩) = true
    ∧ (holding shelf .allocated .none running).mount ⟨9, 1⟩ = some shelf ∧ shelf.originator = 9 ∧ shelf.reachedMounted = false
    ∧ shelf.stage = .sourcing ∧ shelf.home = none ∧ shelf.failure = none ∧ shelf.driveHeld = true
    ∧ (holding shelf .allocated .none running).prm.prompts = []
    ∧ ((holding shelf .allocated .none running).mnt.drives[1]?.map (·.state)) = some .allocated := by decide

theorem witness_RevokeAndCancel_late : running.accepts (tell (.revoke ⟨9, 1⟩)) (.revoke ⟨9, 1⟩) = true
    ∧ ∀ m, running.mount ⟨9, 1⟩ = some m → m.originator ≠ 9 ∨ m.reachedMounted = true := ⟨by decide, of_none (by decide)⟩

theorem witness_RevokeAndCancel_fetch :
    let p := { Prompt.blank .fetch volA with number := 3, cellPos := some 1, mountId := some ⟨9, 1⟩, timerStart := some 100 }
    let s := { holding shelf .allocated .none running with prm := { running.prm with prompts := [p], shown := some 3 } }
    s.settled = true ∧ s.accepts (tell (.revoke ⟨9, 1⟩)) (.revoke ⟨9, 1⟩) = true ∧ s.mount ⟨9, 1⟩ = some shelf
      ∧ (∀ q ∈ s.prm.prompts, q.mountId = some ⟨9, 1⟩ → q.answer = .none) ∧ s.mountPrompt ⟨9, 1⟩ .ring = none
      ∧ s.mountPrompt ⟨9, 1⟩ .fetch = some p ∧ s.prompt 3 = some p ∧ s.prm.waiters = [] ∧ p.stage ≠ .escalated
      ∧ (holding shelf .allocated .none running).mountPrompt ⟨9, 1⟩ .fetch = none := by decide

/-- A record of reel A on its way from slot 7 to drive 1. -/
def moving : MountRec := { record with home := some 5, stage := .toDrive }

/-- The leg of the record, with its number in the queue. -/
def leg (n : Nat) : ArmOrder := { ArmOrder.offer .mountLeg true (.slot 7) (.drive 1) .mount with
  number := n, mountId := some ⟨9, 1⟩, volser := some volA, cls := some 1 }

theorem witness_RevokeAndCancel_moved :
    let r := holding moving .allocated .none running
    let s := { r with
      seq := { r.seq with arm := .busy, inArm := some (leg 2), queue := [leg 3] }
      dir := { r.dir with catalog := [(7, { homeA with state := .out, mountId := some ⟨9, 1⟩ })] } }
    s.settled = true ∧ s.accepts (tell (.revoke ⟨9, 1⟩)) (.revoke ⟨9, 1⟩) = true ∧ s.mount ⟨9, 1⟩ = some moving
      ∧ moving.originator = 9 ∧ moving.reachedMounted = false ∧ moving.driveHeld = true ∧ s.prm.prompts = []
      ∧ moving.turningBack = false ∧ moving.home = some s.addr ∧ s.returnCheck moving.volser = some 7
      ∧ s.orderOf ⟨9, 1⟩ = some (leg 3) ∧ s.order 3 = some (leg 3) ∧ s.placeIssued (leg 3) = false
      ∧ (leg 3).diverted = false ∧ (leg 3).dst = .drive moving.drive
      ∧ (holding record .allocated .none running).accepts (tell (.revoke ⟨9, 1⟩)) (.revoke ⟨9, 1⟩) = true
      ∧ record.stage = .sourcing ∧ record.home = some 3 ∧ 3 ≠ running.addr := by decide

theorem witness_RevokeAndCancel_cancel : (holding record .allocated .none running).accepts (tell (.cancel ⟨9, 1⟩)) (.cancel ⟨9, 1⟩) = true
    ∧ (holding record .allocated .none running).settled = true ∧ (holding record .allocated .none running).lineRoom = true
    ∧ (holding record .allocated .none running).mount ⟨9, 1⟩ = some record ∧ record.originator = 9 ∧ record.resultSent = .none
    ∧ record.cancelPending = false ∧ record.turningBack = false ∧ record.home = some 3 ∧ record.failure = none
    ∧ running.accepts (tell (.cancel ⟨9, 1⟩)) (.cancel ⟨9, 1⟩) = true ∧ running.mount ⟨9, 1⟩ = none
    ∧ (let m := { record with reachedMounted := true, stage := .mounted }
      (holding m .mounted .threaded running).mount ⟨9, 1⟩ = some m ∧ (holding m .mounted .threaded running).settled = true) := by
  decide

/-- A record that was answered CANCELLED in LOADING and is now MOUNTED. -/
def cancelledMounted : MountRec := { record with
  cancelPending := true, resultSent := .cancelled, reachedMounted := true, stage := .mounted }

theorem witness_RevokeAndCancel_mounted :
    let s := fun m => holding m .mounted .threaded running
    let revoked := { cancelledMounted with resultSent := .none, failure := some .revoked }
    (s cancelledMounted).settled = true ∧ (s cancelledMounted).accepts (tell (.cancel ⟨9, 1⟩)) (.cancel ⟨9, 1⟩) = true
      ∧ (s cancelledMounted).mount ⟨9, 1⟩ = some cancelledMounted ∧ cancelledMounted.originator = 9
      ∧ (s cancelledMounted).lineRoom = true ∧ cancelledMounted.failure ≠ some .revoked
      ∧ (s revoked).settled = true ∧ (s revoked).accepts (tell (.cancel ⟨9, 1⟩)) (.cancel ⟨9, 1⟩) = true
      ∧ (s revoked).mount ⟨9, 1⟩ = some revoked := by decide

/-- R70: a CANCEL for a MOUNTED record is answered TOO LATE, also when it was answered CANCELLED in LOADING. -/
theorem test_cancel_after_mounted :
    let s := holding cancelledMounted .mounted .threaded running
    onCancel 9 ⟨9, 1⟩ s = offerTo 9 (.result ⟨9, 1⟩ .tooLate (s.addr * 8 + 1)) s := by decide

theorem witness_ProgressAndResult : (asking awarded running).accepts (tell (.progress ⟨5, 1⟩)) (.progress ⟨5, 1⟩) = true
    ∧ (asking awarded running).accepts (tell (.result ⟨5, 1⟩ (.failed .stale) 0)) (.result ⟨5, 1⟩ (.failed .stale) 0) = true
    ∧ (asking awarded running).accepts (tell (.result ⟨5, 1⟩ .mounted 127)) (.result ⟨5, 1⟩ .mounted 127) = true
    ∧ (asking awarded running).origin ⟨5, 1⟩ = some awarded ∧ awarded.awardee = some 9 ∧ awarded.state = .awarded
    ∧ awarded.staleRetries = 0 ∧ (asking awarded running).lineRoom = true := by decide

theorem witness_ProgressAndResult_other : running.accepts (tell (.progress ⟨5, 1⟩)) (.progress ⟨5, 1⟩) = true
    ∧ ∀ o, running.origin ⟨5, 1⟩ = some o → o.awardee ≠ some 9 := ⟨by decide, of_none (by decide)⟩

theorem witness_ProgressAndResult_awarding :
    (asking awarding running).accepts (tell (.progress ⟨5, 1⟩)) (.progress ⟨5, 1⟩) = true
      ∧ (asking awarding running).accepts (tell (.result ⟨5, 1⟩ .mounted 127)) (.result ⟨5, 1⟩ .mounted 127) = true
      ∧ (asking awarding running).origin ⟨5, 1⟩ = some awarding ∧ awarding.awardee = some 9 ∧ awarding.state = .awarding
      ∧ (asking awarding running).neg.origins = [awarding] := by decide

theorem witness_ProgressAndResult_cancelling :
    let o := { awarded with state := .cancelling }
    (asking o running).settled = true ∧ (asking o running).accepts (tell (.result ⟨5, 1⟩ (.failed .stale) 0)) (.result ⟨5, 1⟩ (.failed .stale) 0) = true
      ∧ (asking o running).origin ⟨5, 1⟩ = some o ∧ o.awardee = some 9 ∧ o.state = .cancelling := by decide

/-- R17 and R71: the first RESULT FAILED STALE of a CANCELLING request ends it, and its learnt entry goes. -/
theorem test_stale_in_cancelling :
    let s := asking { awarded with state := .cancelling, volser := ⟨35, 0, 35, 0, 35, 0⟩ } (knowing running)
    after (exec (.resultReceived (tell (.result ⟨5, 1⟩ (.failed .stale) 0))) s) (fun t =>
      t.dir.learnt.map (·.1) = [1] && t.neg.origins.map (·.ended) = [some (.failed (.awardee .stale))]) := by decide

theorem witness_FetchAndNotHere_fetch :
    let s := lanesOpen running
    s.accepts (tell (.fetch ⟨9, 1⟩ volA 7 9 3)) (.fetch ⟨9, 1⟩ volA 7 9 3) = true ∧ s.lineRoom = true ∧ 9 ≠ s.addr
      ∧ s.fitted .east = true ∧ s.entry 7 = some homeA ∧ homeA.volser = volA ∧ homeA.state = .home ∧ s.orderRoom = true
      ∧ s.takeOutAnswer 8 volB ⟨9, 1⟩ = .refused .out
      ∧ s.accepts (tell (.fetch ⟨9, 1⟩ volA 7 5 3)) (.fetch ⟨9, 1⟩ volA 7 5 3) = true := by decide

theorem witness_FetchAndNotHere_again :
    let o := { leg 2 with dst := .mouth .east }
    let s := { running with dir := { running.dir with catalog := [(7, { homeA with state := .out, mountId := some ⟨9, 1⟩ })] } }
    s.accepts (tell (.fetch ⟨9, 1⟩ volA 7 9 3)) (.fetch ⟨9, 1⟩ volA 7 9 3) = true ∧ s.settled = true ∧ s.lineRoom = true
      ∧ s.entry 7 = some { homeA with state := .out, mountId := some ⟨9, 1⟩ } ∧ s.seq.inArm.toList ++ s.seq.queue = []
      ∧ (arm .busy (some o) s).settled = true ∧ o ∈ (arm .busy (some o) s).seq.inArm.toList ∧ o.mountId = some ⟨9, 1⟩
      ∧ o.dst = .mouth .east := by decide

/-- A NOT HERE for the reel 35-0-35-0-35-0 with the reason 0, which no table gives. -/
def oddNotHere : RawFrame :=
  let p := [9, 1, 35, 0, 35, 0, 35, 0, 0]
  ⟨5, 9, 77, p, frameCheck (headBytes 5 9 .notHere 77 p)⟩

theorem witness_FetchAndNotHere_unusable : (knowing running).settled = true ∧ (knowing running).hears .notHere oddNotHere = true
    ∧ (knowing running).addressed oddNotHere = true ∧ bodyOf .notHere oddNotHere.payload = none := by decide

/-- R17 and R73: the Negotiation Unit cannot use the frame, and the Directory forgets its reel all the same. -/
theorem test_unusable_not_here_forgets :
    after (exec (.notHereReceived oddNotHere) (knowing running)) (fun t => t.dir.learnt.map (·.1) = [1]) := by decide

theorem witness_FetchAndNotHere_notHere :
    let m := { record with home := some 9 }
    let s := holding m .allocated .none running
    s.accepts (tell (.notHere ⟨9, 1⟩ volA .out)) (.notHere ⟨9, 1⟩ volA .out) = true ∧ s.mount ⟨9, 1⟩ = some m
      ∧ m.stage = .sourcing ∧ m.originator ≠ s.addr := by decide

def passing : Routing := ⟨volA, ⟨9, 1⟩, .toDrive, some 5, true, 3, 15, none⟩

/-- Reels at the west mouth. -/
def mouthed (n : Nat) : State := updSide .west (fun r => { r with inbound := List.replicate n passing }) (lanesOpen running)

theorem witness_DepositAndCredit :
    let f := frame (some 5) 4 3 (.deposit passing)
    (mouthed 2).settled = true ∧ (mouthed 2).accepts f (.deposit passing) = true ∧ (mouthed 2).sideOf 4 = some .west
      ∧ ((mouthed 2).side .west).inbound ≠ [] ∧ ((mouthed 2).side .west).inbound.length < (mouthed 2).inboundLimit .west
      ∧ (mouthed 5).accepts f (.deposit passing) = true ∧ (mouthed 5).inboundLimit .west ≤ ((mouthed 5).side .west).inbound.length
      ∧ ((mouthed 5).side .west).inbound.length < 6
      ∧ (mouthed 6).accepts f (.deposit passing) = true ∧ 6 ≤ ((mouthed 6).side .west).inbound.length
      ∧ running.accepts (tell (.deposit passing)) (.deposit passing) = true ∧ running.sideOf 9 = none := by decide

/-- A DEPOSIT of the west neighbour into an empty list. -/
def arriving (r : Routing) (s : State) : Bool := s.settled && s.accepts (frame (some 5) 4 3 (.deposit r)) (.deposit r)
  && s.sideOf 4 = some .west && (s.side .west).inbound = [] && (s.side .west).pickQueued = none && 0 < s.inboundLimit .west
  && s.orderRoom && s.lineRoom

theorem witness_DepositAndCredit_matched :
    let s := holding record .allocated .none (lanesOpen running)
    arriving passing s = true ∧ s.matching passing = some record ∧ record.turningBack = false ∧ passing.ring = true
      ∧ record.resultSent = .none ∧ record.failure = none ∧ record.originator ≠ s.addr := by decide

theorem witness_DepositAndCredit_routes :
    let s := lanesOpen running
    arriving { passing with hops := 2 } s = true ∧ s.matching { passing with hops := 2 } = none ∧ 2 + 3 = s.addr
      ∧ arriving passing s = true ∧ s.addr < passing.hops
      ∧ arriving { passing with destination := some 9 } s = true ∧ 9 ≠ s.addr ∧ s.fitted .east = true
      ∧ arriving { passing with purpose := .toHome } s = true ∧ s.homeOf volA = some (7, homeA)
      ∧ arriving { passing with purpose := .toHome, volser := ⟨35, 0, 35, 0, 35, 0⟩ } s = true
      ∧ s.homeOf ⟨35, 0, 35, 0, 35, 0⟩ = none ∧ arriving { passing with destination := none } s = true := by decide

theorem witness_DepositAndCredit_credit :
    let f := frame (some 5) 4 3 (.credit .east 255)
    let g := frame (some 5) 4 3 (.credit .west 255)
    let s := updSide .west (fun r => { r with requests := [3], available := 0 }) (lanesOpen running)
    (lanesOpen running).settled = true ∧ (lanesOpen running).accepts f (.credit .east 255) = true
      ∧ (lanesOpen running).accepts g (.credit .west 255) = true ∧ (lanesOpen running).sideOf 4 = some .west
      ∧ Side.east ≠ .west ∧ ((lanesOpen running).side .west).requests = [] ∧ s.settled = true
      ∧ s.accepts f (.credit .east 255) = true ∧ (s.side .west).requests = [3] ∧ (s.side .west).outbound = .isOpen
      ∧ (s.side .west).holders.length < (s.side .west).agreed ∧ 1 ≤ 255 := by decide

/-- The west neighbour DOWN, its side with two reels' credit and what has not reached it. -/
def lost (unsent : List Routing) (unreported : Nat) : State :=
  let s := updSide .west (fun r => { r with outbound := .down, undelivered := unsent, unreported := unreported }) (lanesOpen running)
  { s with line := { s.line with peers := [(4, ⟨.down, 0, none⟩), (9, ⟨.down, 0, none⟩)] } }

theorem witness_DepositAndCredit_return :
    let f := frame (some 5) 4 3 (.credit .east 255)
    (lost [] 0).settled = true ∧ (lost [] 0).hearsDown .credit f = true ∧ (lost [] 0).sideOf 4 = some .west
      ∧ ((lost [] 0).side .west).outbound = .down ∧ ((lost [] 0).side .west).requests = []
      ∧ (lost [passing] 3).settled = true ∧ (lost [passing] 3).hearsDown .credit f = true
      ∧ ((lost [passing] 3).side .west).undelivered = [passing] ∧ 0 < ((lost [passing] 3).side .west).unreported
      ∧ (lost [passing] 3).line.waiting = [] ∧ (lost [passing] 3).line.queue.length < 15
      ∧ (lost [] 0).hearsDown .fetch (tell (.fetch ⟨9, 1⟩ volA 7 9 3)) = true ∧ (lost [] 0).sideOf 9 = none := by decide

/-- R42 and R149: a CREDIT from the DOWN neighbour reopens its lane, and sends what waited for its return. -/
theorem test_credit_brings_the_lane_back :
    after (exec (.creditReceived (frame (some 5) 4 3 (.credit .east 1))) (lost [passing] 3)) (fun t =>
      (t.side .west).outbound = .isOpen && (t.side .west).unreported = 0 && (t.peer 4).presence = .up
        && t.line.queue.map (·.body) = [.deposit passing, .credit .east 3]) := by decide

theorem witness_RemotePrompts : running.overhears (shout (.promptNotice 255 .ring volA)) (.promptNotice 255 .ring volA) = true
    ∧ running.overhears (shout (.promptCleared 255)) (.promptCleared 255) = true := by decide

/-- A frame in service in a phase, with attempts and retries made. -/
def serving (g : TxFrame) (p : TxPhase) (attempts retries : Nat) : State := { running with
  line := { running.line with queue := [g], phase := p, attempt := attempts, retries := retries, seqCounter := 255 } }

def aBid : TxFrame := ⟨some 9, .bid ⟨9, 1⟩ 3 1, false, 0, false⟩

def aLocate : TxFrame := ⟨none, .locate ⟨5, 1⟩ volA, true, 0, false⟩

theorem witness_FrameInService : (serving aBid .idle 0 0).settled = true ∧ (serving aBid .idle 0 0).line.queue = aBid :: []
    ∧ aBid.begun = false ∧ aBid.dst = some 9 ∧ aBid.body.kind ≠ .hello ∧ aLocate.begun = true ∧ aLocate.dst = none
    ∧ (serving aBid .sending 15 0).line.attempt < 16 ∧ 16 ≤ (serving aLocate .sending 16 0).line.attempt
    ∧ (serving aBid .ackWait 1 2).line.retries < 3
    ∧ (serving aBid .ackWait 1 0).hears .ack (frame (some 5) 9 0 .ack) = true
    ∧ (frame (some 5) 9 0 .ack).dst.toNat = running.addr := by decide

/-- A frame to a station, in service from its third retry, in a state. -/
def failing (a : Nat) (b : Body) (s : State) : State := { s with
  line := { s.line with queue := [⟨some a, b, true, 7, false⟩], phase := .ackWait, attempt := 1, retries := 3 } }

theorem witness_FrameInService_fails :
    let s := failing 9 (.bid ⟨9, 1⟩ 3 1) running
    s.settled = true ∧ s.line.phase = .ackWait ∧ 3 ≤ s.line.retries
      ∧ 16 ≤ (serving aBid .sending 16 0).line.attempt ∧ (serving aBid .sending 16 0).line.phase = .sending
      ∧ (Body.notHere ⟨9, 1⟩ volA .out).kind = .notHere ∧ running.host.state ≠ .conflict ∧ running.line.waiting = []
      ∧ (failing 9 (.notHere ⟨9, 1⟩ volA .out) running).settled = true := by decide

theorem witness_FrameInService_request :
    let s := failing 9 (.award ⟨5, 1⟩ awarding.terms 1) (asking awarding running)
    s.settled = true ∧ s.origin ⟨5, 1⟩ = some awarding ∧ awarding.state = .awarding ∧ awarding.awardee = some 9
      ∧ awarding.bids = ⟨9, 7, 1⟩ :: ⟨6, 12, 2⟩ :: [] ∧ awarding.awardsMade < 3 ∧ 6 ≠ s.addr ∧ running.origin ⟨5, 1⟩ = none := by
  decide

theorem witness_FrameInService_record :
    let s := failing 9 (.accept ⟨9, 1⟩ 1) (holding record .allocated .none running)
    let u := failing 3 (.fetch ⟨9, 1⟩ volA 7 5 1) (holding record .allocated .none running)
    s.settled = true ∧ s.mount ⟨9, 1⟩ = some record ∧ record.originator = 9 ∧ record.reachedMounted = false
      ∧ record.driveHeld = true ∧ s.prm.prompts = [] ∧ record.turningBack = false ∧ record.stage = .sourcing
      ∧ record.home = some 3 ∧ 3 ≠ s.addr ∧ u.settled = true ∧ u.mount ⟨9, 1⟩ = some record ∧ record.resultSent = .none
      ∧ record.failure = none ∧ record.originator ≠ u.addr ∧ running.mount ⟨9, 1⟩ = none := by decide

theorem witness_FrameInService_lane :
    let full := updSide .west (fun r => { r with undelivered := List.replicate 6 passing }) (lanesOpen running)
    (failing 4 (.deposit passing) (lanesOpen running)).settled = true ∧ (lanesOpen running).sideOf 4 = some .west
      ∧ ((lanesOpen running).side .west).undelivered.length < 6 ∧ (failing 4 (.deposit passing) full).settled = true
      ∧ (full.side .west).undelivered = passing :: List.replicate 5 passing ∧ running.sideOf 9 = none
      ∧ (failing 4 (.credit .east 3) (lanesOpen running)).settled = true := by decide

/-- R40 and R145: an unanswered CREDIT marks the neighbour DOWN, and its count is unreported credit. -/
theorem test_credit_fails :
    after (exec .ackWaitExpiry (failing 4 (.credit .east 3) (lanesOpen running))) (fun t =>
      (t.peer 4).presence = .down && (t.side .west).outbound = .down && (t.side .west).unreported = 3) := by decide

/-- A frame that waits while 15 are queued. -/
def queued (g : TxFrame) (s : State) : State := { s with line := { s.line with
  waiting := [g], queue := List.replicate 15 aBid, presence := some 0 } }

/-- The premises of a waiting frame's entry. -/
def mayEnter (g : TxFrame) (s : State) : Bool := (queued g s).settled && !(queued g s).pins.resetHeld
  && (queued g s).line.waiting = [g] && (queued g s).line.queue.length < 16

theorem witness_WaitingFrameAndPresence :
    let s := queued ⟨some 9, .result ⟨9, 1⟩ .mounted 3, false, 0, false⟩ running
    mayEnter ⟨some 9, .result ⟨9, 1⟩ .mounted 3, false, 0, false⟩ running = true
      ∧ FrameKind.result ∈ [FrameKind.hello, .holding, .bid, .accept, .decline, .revoke, .cancel, .progress, .result]
      ∧ s.line.presence = some 0 ∧ s.onLine = true ∧ s.helloPending = false ∧ running.lineRoom = true
      ∧ running.helloPending = false ∧ running.line.presence ≠ some 0 ∧ running.line.waiting = []
      ∧ ({ running with line := { running.line with queue := [⟨none, .hello greeting, false, 0, false⟩] } }).helloPending = true := by
  decide

theorem witness_WaitingFrameAndPresence_kinds :
    let w := fun (dst : Option Nat) (b : Body) (again : Bool) => mayEnter ⟨dst, b, false, 0, again⟩ (lanesOpen running)
    w none (.locate ⟨5, 1⟩ volA) false = true ∧ w none (.offer ⟨5, 1⟩ terms (.group 2)) false = true
      ∧ w (some 9) (.award ⟨5, 1⟩ terms 1) false = true ∧ w (some 9) (.fetch ⟨9, 1⟩ volA 7 5 3) false = true
      ∧ w none (.promptNotice 3 .ring volA) false = true ∧ w (some 4) (.deposit passing) false = true
      ∧ w (some 4) (.deposit passing) true = true ∧ (lanesOpen running).sideOf 4 = some .west
      ∧ w (some 4) (.credit .east 255) false = true := by decide

theorem witness_SilenceAndLearntExpiry :
    let s := { running with
      line := { running.line with peers := [(4, ⟨.up, 0, none⟩)] }
      dir := { running.dir with learnt := [(0, ⟨volA, 9, 1, true, 2, .home, 0⟩), (255, ⟨volB, 9, 1, true, 2, .home, 1⟩)] } }
    s.settled = true ∧ (s.peer 4).presence = .up ∧ (s.peer 4).silence = 0 ∧ (s.peer 6).presence ≠ .up
      ∧ (tableGet s.dir.learnt 0).map (·.lifetime) = some 0 ∧ (tableGet s.dir.learnt 255).map (·.lifetime) = some 1 := by decide

/-! ### Statements over timers, arm, drives, console, wear and accounting -/

theorem witness_LocateAndBidWindows :
    let shelfNow := { request with locateAttempts := 3 }
    let offered := { request with state := .offered, round := 1, locateWindow := none, bidWindow := some 2, bids := [⟨9, 7, 1⟩] }
    (asking request running).settled = true ∧ (asking request running).lineRoom = true ∧ 5 = running.addr
      ∧ (asking request running).origin ⟨5, 1⟩ = some request ∧ request.locateWindow.isSome = true
      ∧ request.locateAttempts < running.timers.robustness ∧ running.timers.robustness ≤ shelfNow.locateAttempts
      ∧ (asking shelfNow running).origin ⟨5, 1⟩ = some shelfNow ∧ (asking offered running).origin ⟨5, 1⟩ = some offered
      ∧ offered.bidWindow.isSome = true ∧ offered.bids = ⟨9, 7, 1⟩ :: [] ∧ 9 ≠ running.addr ∧ offered.awardsMade < 3
      ∧ (let o := { offered with bids := [] }; (asking o running).origin ⟨5, 1⟩ = some o ∧ o.round = 1)
      ∧ (let o := { offered with bids := [], round := 2 }; (asking o running).origin ⟨5, 1⟩ = some o ∧ o.round ≠ 1)
      ∧ running.openPrompts < 20 ∧ running.prm.postings = [] := by decide

theorem witness_LocateAndBidWindows_own :
    let o := { request with
      state := .offered, round := 1, locateWindow := none, bidWindow := some 2, bids := [⟨5, 7, 1⟩, ⟨9, 8, 1⟩]
      loc := some ⟨some 3, 9, true, 2⟩ }
    (asking o running).settled = true ∧ (asking o running).origin ⟨5, 1⟩ = some o ∧ o.bids = ⟨5, 7, 1⟩ :: [⟨9, 8, 1⟩]
      ∧ 5 = (asking o running).addr ∧ o.awardsMade + 1 < 3 ∧ o.terms.loc.station = some 3 ∧ 9 ≠ running.addr
      ∧ (asking o (arm .fault none running)).settled = true
      ∧ (let a := { awarding with bids := [⟨9, 7, 1⟩, ⟨5, 12, 1⟩], awardsMade := 1 }
        (asking a running).origin ⟨5, 1⟩ = some a ∧ a.awardAnswer.isSome = true) := by decide

/-- R45, R57 to R59: the station's own bid is awarded and accepted in one event, and its FETCH is queued. -/
theorem test_award_to_itself :
    let o := { request with
      state := .offered, round := 1, locateWindow := none, bidWindow := some 2, bids := [⟨5, 7, 1⟩]
      loc := some ⟨some 3, 9, true, 2⟩ }
    after (exec (.bidWindowExpiry ⟨5, 1⟩) (asking o running)) (fun t =>
      t.neg.origins.map (·.state) = [.awarded] && t.mnt.mounts.map (·.id) = [⟨5, 1⟩]
        && t.line.queue.map (·.body) = [.fetch ⟨5, 1⟩ volA 9 5 1]) := by decide

theorem witness_AwardTimers : (asking awarding running).settled = true ∧ (asking awarding running).origin ⟨5, 1⟩ = some awarding
    ∧ awarding.state = .awarding ∧ awarding.awardAnswer.isSome = true ∧ awarding.bids = ⟨9, 7, 1⟩ :: ⟨6, 12, 2⟩ :: []
    ∧ awarding.awardsMade < 3 ∧ 6 ≠ running.addr ∧ (asking awarded running).origin ⟨5, 1⟩ = some awarded
    ∧ awarded.state = .awarded ∧ awarded.watch = some 0 ∧ awarding.watch ≠ some 0 := by decide

/-- A record of a reel of this station. -/
def local7 : MountRec := { record with home := some 5 }

theorem witness_SourcingAndWaitingOffers_local :
    let s := { holding local7 .allocated .none running with seq := { running.seq with waiting := [.sourceLocal ⟨9, 1⟩] } }
    s.settled = true ∧ s.lineRoom = true ∧ s.seq.waiting = .sourceLocal ⟨9, 1⟩ :: [] ∧ s.orderRoom = true
      ∧ s.mount ⟨9, 1⟩ = some local7 ∧ s.homeOf local7.volser = some (7, homeA) ∧ s.entry 7 = some homeA ∧ homeA.state = .home
      ∧ homeA.ring = true ∧ local7.resultSent = .none ∧ local7.failure = none ∧ local7.originator ≠ s.addr
      ∧ .sourceLocal ⟨9, 1⟩ ∉ running.seq.waiting := by decide

theorem witness_SourcingAndWaitingOffers_offer :
    let o := ArmOrder.offer .returnLeg true (.drive 1) (.slot 7) .mount
    let s := { running with seq := { running.seq with waiting := [.order o none none] } }
    s.settled = true ∧ s.seq.waiting = .order o none none :: [] ∧ o.dst = .slot 7 ∧ o.purpose ≠ .audit ∧ s.seq.queue.length < 12
      ∧ (let t := { arm .busy (some o) s with seq := { (arm .busy (some o) s).seq with queue := List.replicate 12 o } }
        t.settled = true ∧ 12 ≤ t.seq.queue.length) := by decide

theorem witness_SourcingAndWaitingOffers_cell :
    let o := { ArmOrder.offer .returnLeg false .cell (.slot 8) .mount with mountId := some ⟨9, 1⟩, volser := some volA }
    let m := { local7 with turningBack := true, stage := .returning }
    let r := holding m .free .none running
    let s := { r with
      seq := { r.seq with waiting := [.order o none none] }
      dir := { r.dir with catalog := [(7, { homeA with state := .out, mountId := some ⟨9, 1⟩ })] } }
    s.settled = true ∧ s.seq.waiting = .order o none none :: [] ∧ o.purpose ≠ .audit ∧ o.src = .cell ∧ o.form = .pick
      ∧ o.queuedBy = .mount ∧ s.mount ⟨9, 1⟩ = some m ∧ m.turningBack = true ∧ m.home = some s.addr ∧ s.seq.queue.length < 12
      ∧ s.returnCheck m.volser = some 7 ∧ running.returnCheck m.volser = none
      ∧ { running with seq := s.seq, mnt := s.mnt }.settled = true := by decide

/-- The pick of reel A in the arm, its label read. -/
def pickA : ArmOrder := { ArmOrder.offer .mountLeg true (.slot 7) (.drive 1) .mount with volser := some volA }

/-- The place of reel B into its slot, brought by lane. -/
def placeB : ArmOrder := { ArmOrder.offer .returnLeg false (.mouth .west) (.slot 8) .lane with
  form := .place, phases := phasesOf .place false, volser := some volB, routing := some { passing with purpose := .toHome } }

theorem witness_CompletionsAreApplied : (arm .busy (some pickA) running).settled = true
    ∧ (arm .busy (some pickA) running).seq.inArm = some pickA ∧ pickA.number = 0 ∧ (arm .busy (some pickA) running).seq.queue = []
    ∧ pickA.faultTaken = false ∧ pickA.form = .pick ∧ pickA.src = .slot 7 ∧ Phase.read ∈ pickA.phases
    ∧ [1, 2, 3, 4, 5, 6, 21, 17].length = 8
    ∧ labelSearch pickA.volser running.seq.hint [1, 2, 3, 4, 5, 6, 21, 17] = .found ⟨0, false⟩
    ∧ Phase.read ∉ (ArmOrder.offer .mountLeg false (.slot 7) (.drive 1) .mount).phases
    ∧ placeB.form = .place ∧ placeB.dst = .slot 8 ∧ Phase.read ∉ placeB.phases ∧ placeB.ofMount = false
    ∧ running.entry 8 = some outB ∧ outB.state = .out ∧ running.seq.arm ≠ .busy ∧ (auditRead 7).form = .readOnly
    ∧ (auditRead 7).src = .slot 7 ∧ (auditRead 7).dst = .slot 7 ∧ (auditRead 7).srcPos = none ∧ running.entry 7 = some homeA
    ∧ (auditing 8).seq.audit.next ≤ (auditing 8).seq.audit.last := by
  decide

/-- The record's reel under way, its order in the arm, its entry OUT. -/
def working (o : ArmOrder) (m : MountRec) (st : DriveState) : State :=
  let r := holding m st .none running
  arm .busy (some o) { r with dir := { r.dir with catalog := [(7, { homeA with state := .out, mountId := some ⟨9, 1⟩ }), (8, outB)] } }

/-- The record's leg as the place order, to a location. -/
def placing (dest : Loc) : ArmOrder := { leg 2 with form := .place, phases := phasesOf .place false, dst := dest }

/-- The premises that the completions of a record's order share. -/
def underWay (o : ArmOrder) (m : MountRec) (st : DriveState) : Bool :=
  let s := working o m st
  s.settled && s.seq.inArm = some o && s.seq.queue = [] && s.mount ⟨9, 1⟩ = some m && o.queuedBy = .mount && o.mountId = some ⟨9, 1⟩
    && m.resultSent = .none && m.failure = none && m.originator != s.addr && s.lineRoom && s.prm.prompts = []
    && s.prm.waiters = [] && s.emptyCell = some 0

theorem witness_CompletionsAreApplied_record : underWay (leg 2) moving .allocated = true
    ∧ (working (leg 2) moving .allocated).homeOf volA = some (7, { homeA with state := .out, mountId := some ⟨9, 1⟩ })
    ∧ (working (leg 2) moving .allocated).entry 7 = some { homeA with state := .out, mountId := some ⟨9, 1⟩ }
    ∧ (leg 2).src = .slot 7 ∧ (leg 2).dst = .drive 1 ∧ (leg 2).srcPos = none ∧ moving.reachedMounted = false
    ∧ underWay { leg 2 with faultTaken := true, repeatUsed := true } moving .allocated = true
    ∧ labelSearch (some volA) running.seq.hint [7, 8, 9, 10, 11, 12, 20, 32] = .mismatch volB
    ∧ labelSearch (some volA) running.seq.hint [63, 63, 63, 63, 63, 63, 63, 63] = .unreadable
    ∧ (leg 2).repeatUsed = false := by decide

theorem witness_CompletionsAreApplied_place : underWay (placing (.drive 1)) moving .allocated = true
    ∧ (placing (.drive 1)).cellUse = .none ∧ moving.drive = 1 ∧ moving.turningBack = false ∧ moving.driveHeld = true
    ∧ ((working (placing (.drive 1)) moving .allocated).mnt.drives[1]?.map fun r => (r.state, r.mountId))
      = some (.allocated, some ⟨9, 1⟩)
    ∧ (working (placing (.drive 1)) moving .allocated).orderOf ⟨9, 1⟩ = some (placing (.drive 1))
    ∧ (placing (.drive 1)).diverted = false ∧ moving.home = some running.addr
    ∧ (working (placing (.drive 1)) moving .allocated).returnCheck moving.volser = some 7
    ∧ underWay { placing .cell with dstPos := some 1, cellUse := .ring } moving .allocated = true ∧ moving.volser = volA
    ∧ underWay { placing .cell with dstPos := some 1, cellUse := .unreadable } moving .allocated = true
    ∧ underWay (placing (.slot 7)) moving .allocated = true := by decide

theorem witness_CompletionsAreApplied_home :
    let m := { moving with stage := .returning, resultSent := .mounted, reachedMounted := true, driveHeld := false
                           readyTime := some 3, unloadTime := some 9 }
    let s := working (placing (.slot 7)) m .free
    s.settled = true ∧ s.mount ⟨9, 1⟩ = some m ∧ (placing (.slot 7)).routing = none ∧ s.prm.prompts = []
      ∧ s.entry 7 = some { homeA with state := .out, mountId := some ⟨9, 1⟩ } ∧ m.cancelPending = false
      ∧ (let o := { ArmOrder.offer .returnLeg true (.drive 1) (.slot 7) .mount with mountId := some ⟨9, 1⟩, volser := some volA }
        let t := working o { m with driveHeld := true } .emptying
        t.settled = true ∧ o.purpose = .returnLeg ∧ t.returnCheck volA = some 7
          ∧ (t.mnt.drives[1]?.map (·.mountId)) = some (some ⟨9, 1⟩)
          ∧ (let u := { t with mnt := { t.mnt with drives := t.mnt.drives.modify 1 fun r => { r with mountId := none } } }
            u.settled = true ∧ u.returnCheck volA = some 7 ∧ (u.mnt.drives[1]?.map (·.mountId)) = some none)) := by decide

/-- The CELL order of slot 7's retirement, in a form, with cell position 0. -/
def retiring (f : Form) (faulted : Bool) : State :=
  let o := { retirePick 7 volA with form := f, phases := phasesOf f false, dstPos := some 0, faultTaken := faulted }
  let s := arm .busy (some o) running
  { s with
    dir := { s.dir with catalog := [(7, { homeA with state := .retiring })] }
    wear := { s.wear with records := [(7, ⟨9, 0, 0, 0, 2, .ordered, some .streak⟩)] } }

theorem witness_CompletionsAreApplied_retire :
    (retiring .pick true).settled = true ∧ (retiring .pick true).entry 7 = some { homeA with state := .retiring }
      ∧ (retiring .pick true).homeOf volA = some (7, { homeA with state := .retiring }) ∧ (retirePick 7 volA).queuedBy = .wear
      ∧ (retirePick 7 volA).mountId = none ∧ (retirePick 7 volA).src = .slot 7 ∧ (retirePick 7 volA).dst = .cell
      ∧ (retirePick 7 volA).srcPos = none ∧ (retirePick 7 volA).cellUse = .retire ∧ (retiring .pick true).prm.waiters = []
      ∧ (retiring .pick true).seq.queue = [] ∧ (retiring .place false).settled = true ∧ Phase.read ∉ phasesOf .place false
      ∧ underWay { placing .cell with dstPos := some 1, cellUse := .ring, faultTaken := true } moving .allocated = true := by
  decide

/-- R177: the place of a CELL order posts the RETIRE prompt; dropped, the retirement is DUE again. -/
theorem test_retirement_course :
    after (exec (.armCompletion 0 .ok none) (retiring .place false)) (fun t =>
      t.prm.prompts.map (·.kind) = [.retire] && (t.wearOf 7).stage = .prompted)
    ∧ after (exec (.armCompletion 0 .armFault none) (retiring .pick true)) (fun t =>
      (t.wearOf 7).stage = .due && t.wear.notices = [.wear 7 volA .abandonedArm (some .streak) 9 2]
        && (t.entry 7).map (·.state) = some .missing) := by decide

theorem witness_CompletionsAreApplied_lane :
    let s := arm .busy (some { ArmOrder.offer .relay false (.mouth .west) (.mouth .east) .lane with routing := some passing }) (mouthed 1)
    let o := { ArmOrder.offer .returnLeg false (.mouth .west) (.slot 8) .lane with volser := some volB, routing := some passing }
    s.settled = true ∧ (s.side .west).inbound = passing :: [] ∧ (s.peer (s.neighbour .west)).presence = .up ∧ s.line.queue = []
      ∧ s.lineRoom = true ∧ (arm .busy (some o) (mouthed 1)).settled = true ∧ o.ofMount = false ∧ o.dst = .slot 8
      ∧ (arm .busy (some { placeB with dst := .mouth .east }) (lanesOpen running)).settled = true
      ∧ (let p := fun u => { placeB with dst := .cell, dstPos := some 0, cellUse := u }
        (arm .busy (some (p .remove)) running).settled = true ∧ (arm .busy (some (p (.wrongLabel volA))) running).settled = true
          ∧ (arm .busy (some (p .slotOccupied)) running).settled = true ∧ (p .remove).ofMount = false) := by decide

theorem witness_LabelSearchFinds : volA.wellFormed = true ∧ 7 < 8 := by decide

/-- The record with its reel on the drive. -/
def loaded (st : Stage) : MountRec := { local7 with stage := st, loadWait := some 0 }

theorem witness_DriveLinkEvents : (holding (loaded .loading) .loading .threaded running).settled = true
    ∧ (holding (loaded .loading) .loading .threaded running).mount ⟨9, 1⟩ = some (loaded .loading) ∧ (loaded .loading).drive = 1
    ∧ ((holding (loaded .loading) .loading .threaded running).mnt.drives[1]?.map fun r => (r.state, r.mountId))
      = some (.loading, some ⟨9, 1⟩)
    ∧ (loaded .loading).home = some running.addr ∧ (loaded .loading).originator ≠ running.addr ∧ running.lineRoom = true
    ∧ running.orderRoom = true ∧ (loaded .loading).loadWait = some 0
    ∧ ((holding (loaded .mounted) .mounted .threaded running).mnt.drives[1]?.map fun r => (r.state, r.mountId))
      = some (.mounted, some ⟨9, 1⟩) := by decide

theorem witness_DriveLinkEvents_protocol :
    (∀ r, running.mnt.drives[7]? = some r → r.state ≠ .loading)
    ∧ (∀ r, running.mnt.drives[7]? = some r → r.state ≠ .mounted ∧ (r.state = .offline → r.aboard ≠ .threaded))
    ∧ (let s := holding (loaded .loading) .offline .threaded running
      s.settled = true ∧ (s.mnt.drives[1]?.map fun r => (r.state, r.aboard, r.mountId)) = some (.offline, .threaded, some ⟨9, 1⟩)) :=
  ⟨of_none (by decide), of_none (by decide), by decide⟩

theorem witness_OfflineOnlineAndArrivalLimit :
    (running.mnt.drives[2]?.map fun r => (r.state, r.mountId)) = some (.free, none)
    ∧ ((holding (loaded .mounted) .mounted .threaded running).mnt.drives[1]?.map fun r => (r.state, r.mountId))
      = some (.mounted, some ⟨9, 1⟩)
    ∧ ((holding (loaded .mounted) .offline .threaded running).mnt.drives[1]?.map fun r => (r.state, r.aboard))
      = some (.offline, .threaded)
    ∧ ((holding record .offline .none running).mnt.drives[1]?.map fun r => (r.state, r.aboard, r.mountId))
      = some (.offline, .none, some ⟨9, 1⟩)
    ∧ (let m := { record with arrivalLimit := some 0 }
      let s := holding m .allocated .none running
      s.settled = true ∧ s.mount ⟨9, 1⟩ = some m ∧ m.stage = .sourcing ∧ m.originator ≠ s.addr ∧ m.reachedMounted = false
        ∧ m.driveHeld = true ∧ s.lineRoom = true ∧ s.prm.prompts = [])
    ∧ record.arrivalLimit ≠ some 0 ∧ record.stage ≠ .loading := by decide

theorem witness_OfflineOnlineAndArrivalLimit_offline :
    let back := { ArmOrder.offer .returnLeg true (.drive 1) (.slot 7) .mount with number := 4, mountId := some ⟨9, 1⟩ }
    let r := holding { local7 with stage := .returning } .emptying .loose running
    let s := { r with seq := { r.seq with arm := .busy, queue := [back], waiting := [.sourceLocal ⟨9, 1⟩] } }
    (holding record .allocated .none running).settled = true ∧ (holding record .allocated .none running).lineRoom = true
      ∧ ((holding record .allocated .none running).mnt.drives[1]?.map fun r => (r.state, r.mountId)) = some (.allocated, some ⟨9, 1⟩)
      ∧ record.drive = 1 ∧ record.driveHeld = true ∧ record.stage = .sourcing ∧ record.home = some 3 ∧ record.turningBack = false
      ∧ ((holding (loaded .loading) .loading .threaded running).mnt.drives[1]?.map (·.state)) = some .loading
      ∧ (loaded .loading).stage = .loading ∧ (loaded .loading).resultSent = .none ∧ (loaded .loading).failure = none
      ∧ s.settled = true ∧ (s.mnt.drives[1]?.map fun r => (r.state, r.mountId)) = some (.emptying, some ⟨9, 1⟩)
      ∧ s.mount ⟨9, 1⟩ = some { local7 with stage := .returning } ∧ s.seq.queue.find? (ArmOrder.isPickBack 1) = some back
      ∧ s.seq.queue.find? (fun q => q.number = 4) = some back ∧ back.srcPos = none := by decide

theorem witness_OfflineOnlineAndArrivalLimit_online :
    let s := holding { local7 with stage := .returning } .offline .loose running
    let idle := fun ab => { running with mnt := { running.mnt with drives := running.mnt.drives.modify 1 fun r => { r with
      state := .offline, aboard := ab } } }
    s.settled = true ∧ (s.mnt.drives[1]?.map fun r => (r.state, r.aboard, r.mountId)) = some (.offline, .loose, some ⟨9, 1⟩)
      ∧ s.mount ⟨9, 1⟩ = some { local7 with stage := .returning } ∧ local7.drive = 1 ∧ local7.home = some s.addr
      ∧ s.orders.any (ArmOrder.isPickBack 1) = false ∧ s.orderRoom = true
      ∧ ((idle .loose).mnt.drives[1]?.map fun r => (r.state, r.aboard, r.mountId)) = some (.offline, .loose, none)
      ∧ ((idle .none).mnt.drives[1]?.map fun r => (r.state, r.aboard, r.mountId)) = some (.offline, .none, none)
      ∧ (idle .loose).settled = true ∧ (idle .none).settled = true ∧ s.leftOn 1 = none ∧ (idle .loose).leftOn 1 = none := by decide

/-- A record whose reel lies on drive 1, OFFLINE, which no record holds. -/
def leftBehind : MountRec := { local7 with stage := .returning, turningBack := true, driveHeld := false, reelLeft := true }

/-- That drive and that record, with the arm at other work. -/
def reelLeftOn (st : DriveState) : State := { running with
  mnt := { running.mnt with
    mounts := [leftBehind], drives := running.mnt.drives.modify 1 fun r => { r with state := st, aboard := .loose } }
  seq := { running.seq with arm := .fault } }

theorem witness_OfflineOnlineAndArrivalLimit_left : (reelLeftOn .offline).leftOn 1 = some leftBehind
    ∧ (reelLeftOn .offline).settled = true ∧ (reelLeftOn .offline).mount ⟨9, 1⟩ = some leftBehind
    ∧ leftBehind.home = some running.addr ∧ (reelLeftOn .offline).orders = [] ∧ (reelLeftOn .offline).orderRoom = true
    ∧ ((reelLeftOn .offline).mnt.drives[1]?.map fun r => (r.state, r.aboard, r.mountId)) = some (.offline, .loose, none)
    ∧ dropPickBack 1 (reelLeftOn .free) = reelLeftOn .free
    ∧ ((reelLeftOn .free).mnt.drives[1]?.map fun r => (r.state, r.mountId)) = some (.free, none) := by decide

/-- R92: a reel is never picked from a drive in OFFLINE; ONLINE queues its pick-back. -/
theorem test_left_reel_is_picked_after_online :
    (match exec (.online 1) (reelLeftOn .offline) with
      | .next t => (t.mnt.drives[1]?.map fun r => (r.state, r.mountId), t.seq.queue.map (·.src))
      | _ => (none, [])) = (some (.emptying, some ⟨9, 1⟩), [.drive 1]) := by decide

/-- A prompt with a number at position 1 of the cell, queued at second 100. -/
def promptAt (n : Nat) (k : PromptKind) : Prompt := { Prompt.blank k volA with
  number := n, cellPos := some 1, mountId := some ⟨9, 1⟩, drive := some 1, posted := 100, timerStart := some 100 }

/-- Prompts in the queue, one shown. -/
def prompting (l : List Prompt) (n : Nat) (s : State) : State := { s with prm := { s.prm with prompts := l, shown := some n } }

theorem witness_KeysAnswerTheShownPrompt : running.prm.shown = none
    ∧ (let s := prompting [promptAt 3 .misfile] 3 (holding shelf .allocated .none running)
      s.settled = true ∧ s.prm.shown = some 3 ∧ s.prompt 3 = some (promptAt 3 .misfile) ∧ s.prm.unconfirmed = false
        ∧ (promptAt 3 .misfile).stage ≠ .escalated ∧ s.prm.waiters = []
        ∧ { s with prm := { s.prm with unconfirmed := true } }.settled = true)
    ∧ (let s := prompting [promptAt 3 .fetch] 3 (holding shelf .allocated .none running)
      s.settled = true ∧ s.prompt 3 = some (promptAt 3 .fetch) ∧ s.mount ⟨9, 1⟩ = some shelf ∧ shelf.originator ≠ s.addr
        ∧ s.orderRoom = true ∧ s.lineRoom = true)
    ∧ (let s := prompting [promptAt 3 .misfile, promptAt 4 .misfile] 3 running
      s.settled = true ∧ s.displayOrder.map (·.number) = [] ++ 3 :: 4 :: []
        ∧ (let t := { s with prm := { s.prm with shown := some 4, browsing := true } }
          t.settled = true ∧ t.displayOrder.map (·.number) = [3] ++ [4] ∧ 4 ∉ [3])) := by decide

/-- What the answers to a record's prompt ask of the state. -/
def answerable (p : Prompt) (s : State) : Bool := s.settled && s.prompt 3 = some p && s.prm.shown = some 3 && !s.prm.unconfirmed
  && s.host.state != .conflict && s.line.waiting.isEmpty && s.line.queue.length < 15 && p.cellPos = some 1 && s.prm.waiters.isEmpty

/-- The entry of reel A OUT. -/
def outA (s : State) : State := { s with dir := { s.dir with catalog := [(7, { homeA with state := .out, mountId := some ⟨9, 1⟩ })] } }

/-- No room in the order queue. -/
def crowded (s : State) : State := { s with seq := { s.seq with waiting := [.laneHead .west] } }

theorem witness_KeysAnswerTheShownPrompt_record :
    let at3 := fun (k : PromptKind) (m : MountRec) => outA (prompting [promptAt 3 k] 3 (holding m .allocated .none running))
    let ringed := { moving with stage := .ring }
    let homing := { moving with stage := .returning, turningBack := true }
    answerable (promptAt 3 .fetch) (at3 .fetch shelf) = true ∧ answerable (promptAt 3 .ring) (at3 .ring ringed) = true
      ∧ answerable (promptAt 3 .unreadable) (at3 .unreadable moving) = true
      ∧ answerable (promptAt 3 .unreadable) (at3 .unreadable homing) = true
      ∧ (at3 .ring ringed).mount ⟨9, 1⟩ = some ringed ∧ (at3 .ring ringed).orderRoom = true ∧ ringed.home = some running.addr
      ∧ (at3 .ring ringed).returnCheck volA = some 7 ∧ (at3 .unreadable homing).mount ⟨9, 1⟩ = some homing
      ∧ (at3 .fetch shelf).mount ⟨9, 1⟩ = some shelf ∧ (at3 .unreadable moving).prm.prompts = [promptAt 3 .unreadable]
      ∧ answerable (promptAt 3 .fetch) (crowded (at3 .fetch shelf)) = true ∧ (crowded (at3 .fetch shelf)).orderRoom = false
      ∧ answerable (promptAt 3 .ring) (crowded (at3 .ring ringed)) = true
      ∧ answerable (promptAt 3 .unreadable) (crowded (at3 .unreadable moving)) = true := by decide

/-- A record whose failure goes to another station, and a prompt whose PROMPT NOTICE has gone. -/
theorem witness_failsOpenly : (outA (holding moving .allocated .none running)).failsOpenly moving
    ∧ { promptAt 3 .ring with stage := .escalated, notice := .sent }.noticeSent ∧ (promptAt 3 .ring).noticeSent :=
  ⟨by unfold State.failsOpenly; decide, by unfold Prompt.noticeSent; decide, by unfold Prompt.noticeSent; decide⟩

theorem witness_KeysAnswerTheShownPrompt_alone :
    let p := { promptAt 3 .retire with volser := volA, mountId := none, slot := some 7 }
    let s := prompting [p] 3 { running with dir := { running.dir with catalog := [(7, { homeA with state := .retiring })] } }
    let u := { promptAt 3 .unserved with cellPos := none, mountId := none }
    let v := { promptAt 3 .unreadable with volser := volB }
    answerable p s = true ∧ s.entry 7 = some { homeA with state := .retiring } ∧ homeA.volser = p.volser
      ∧ (prompting [u] 3 running).settled = true ∧ (prompting [u] 3 running).prompt 3 = some u
      ∧ answerable v (prompting [v] 3 running) = true ∧ running.mount ⟨9, 1⟩ = none ∧ running.homeOf volB = some (8, outB)
      ∧ outB.state = .out ∧ running.orderRoom = true
      ∧ (let w := { v with volser := ⟨35, 0, 35, 0, 35, 0⟩ }
        answerable w (prompting [w] 3 running) = true ∧ running.homeOf w.volser = none) := by decide

/-- R160 and R163: CANNOT on a RING prompt with no room for its pick: the prompt stays with its answer held, the record has failed. -/
theorem test_answer_held :
    let s := crowded (outA (prompting [promptAt 3 .ring] 3 (holding { moving with stage := .ring } .allocated .none running)))
    after (exec .cannotKey s) (fun t => t.prm.prompts.map (·.answer) = [.cannot] && t.prm.shown = none && t.seq.queue = []
      && t.mnt.mounts.map (·.failure) = [some .noRing]) := by decide

theorem witness_DoorAndPromptTimers_posting :
    let p := { Prompt.blank .fetch volA with mountId := some ⟨9, 1⟩ }
    let s := { running with prm := { running.prm with postings := [p] } }
    s.settled = true ∧ s.prm.postings = p :: [] ∧ s.openPrompts < 20 ∧ p.kind = .fetch ∧ s.prm.waiters = []
      ∧ s.emptyCell = some 0 ∧ s.prm.prompts.length < 255 ∧ running.prm.postings = [] := by decide

/-- A record's prompt, at a time of the station clock. -/
def waiting (k : PromptKind) (m : MountRec) (clock : Nat) : State :=
  let s := prompting [promptAt 3 k] 3 (holding m .allocated .none running)
  { s with host := { s.host with clock := clock } }

theorem witness_DoorAndPromptTimers_due : (waiting .fetch shelf 100000).settled = true
    ∧ (waiting .fetch shelf 100000).prompt 3 = some (promptAt 3 .fetch) ∧ (promptAt 3 .fetch).timerStart = some 100
    ∧ (promptAt 3 .fetch).stage = .queued ∧ 100 + running.timers.reminder ≤ 100000
    ∧ running.timers.reminder < running.timers.escalation ∧ 100 + running.timers.escalation ≤ 100000
    ∧ (waiting .fetch shelf 100000).lineRoom = true ∧ (waiting .fetch shelf 100000).mount ⟨9, 1⟩ = some shelf
    ∧ (waiting .fetch shelf 100000).prm.prompts = [promptAt 3 .fetch] ∧ 100 + running.timers.fetchExpiry ≤ 100000
    ∧ 100 + running.timers.ringExpiry ≤ 100000 ∧ (waiting .ring { shelf with stage := .ring } 100000).settled = true
    ∧ (waiting .ring { shelf with stage := .ring } 100000).mount ⟨9, 1⟩ = some { shelf with stage := .ring } := by decide

theorem witness_DoorAndPromptTimers_waiting :
    let p := { promptAt 3 .fetch with stage := .waitingCell, cellPos := none, timerStart := none }
    let s := holding shelf .allocated .none { running with
      prm := { running.prm with prompts := [p], waiters := [.prompt 3] }, host := { running.host with clock := 100000 } }
    s.settled = true ∧ s.prompt 3 = some p ∧ p.answer = .none ∧ s.mount ⟨9, 1⟩ = some shelf
      ∧ 100 + s.timers.fetchExpiry ≤ s.clock ∧ s.prm.prompts = [p]
      ∧ (let t := outA (waiting .ring { moving with stage := .ring } 100000)
        t.settled = true ∧ t.orderRoom = true ∧ t.returnCheck volA = some 7 ∧ moving.home = some t.addr
          ∧ 100 + t.timers.ringExpiry ≤ t.clock) := by decide

theorem witness_DoorAndPromptTimers_early : (waiting .fetch shelf 100).settled = true ∧ 100 < 100 + running.timers.reminder
    ∧ 100 < 100 + running.timers.escalation ∧ 100 < 100 + running.timers.fetchExpiry
    ∧ 100 < 100 + running.timers.ringExpiry := by decide

/-- A hand-over for slot 7 waits, its wear record as given. -/
def worn (w : WearRec) (c : Counts) : State := { running with
  wear := { running.wear with handovers := [⟨7, volA, some c⟩], records := [(7, w)] } }

theorem witness_WearHandOver : running.wear.handovers = []
    ∧ (let w : WearRec := ⟨7, 3, 30000, 75, 1, .none, none⟩
      let c : Counts := ⟨10000, 0, 26, false⟩
      let s := worn w c
      s.settled = true ∧ s.wear.handovers = ⟨7, volA, some c⟩ :: [] ∧ s.wearOf 7 = w ∧ s.entry 7 = some homeA
        ∧ homeA.state = .home ∧ s.orderRoom = true
        ∧ (let t := { s with dir := { s.dir with catalog := [] } }; t.settled = true ∧ t.entry 7 = none)) := by decide

/-- R173 to R175: a window left full is tested before the pass, and the hard error orders the reel out. -/
theorem test_hard_error_after_full_window :
    after (exec .wearHandover (worn ⟨7, 4, 10000, 30, 0, .none, none⟩ ⟨500, 0, 1, true⟩)) (fun t =>
      t.wearOf 7 = ⟨8, 1, 500, 1, 1, .ordered, some .hardError⟩
        && t.wear.notices = [.wear 7 volA (.suspect 10000 30) none 7 1, .wear 7 volA .retiring (some .hardError) 8 1]) := by decide

/-- R172 and R176: a hand-over without counts carries out a retirement that was DUE; its CELL pick is issued at once. -/
theorem test_due_without_counts :
    let s := { running with wear := { running.wear with
      handovers := [⟨7, volA, none⟩], records := [(7, ⟨9, 0, 0, 0, 2, .due, some .streak⟩)] } }
    after (exec .wearHandover s) (fun t => t.wearOf 7 = ⟨9, 0, 0, 0, 2, .ordered, some .streak⟩
      && (t.entry 7).map (·.state) = some .retiring && t.seq.inArm.map (fun o => (o.src, o.dst, o.dstPos)) = some (.slot 7, .cell, some 0)) := by
  decide

/-! ### Worked examples of the spec -/

/-- 00_scope.md, section 5: slot 1,234 is column 19, tier 18. -/
theorem test_slot_grid_point : slotPoint 1234 = ⟨19, 18⟩ := by decide

/-- 02_the_library_line.md, section 2.5.1: station 3 counts 11 slots and station 5 counts 13 after the first attempt. -/
theorem test_backoff : backoffSlots 3 1 = 11 ∧ backoffSlots 5 1 = 13 := by decide

/-- 04_service_estimates.md, section 4.8.1: station 3's travel from A to the slot and from the slot to its drive. -/
theorem test_travel : travel 30 12 ⟨10, 5⟩ ⟨19, 18⟩ = 270 ∧ travel 30 12 ⟨19, 18⟩ ⟨40, 2⟩ = 630 := by decide

/-- Station 5 of section 4.8.1: its west mouth at (0, 32), one drive at (6, 20), the arm's reference at (30, 40), W at 2,100. -/
def bidder : State :=
  let s := State.resetWith ⟨⟨5, 1, true, false⟩, false, false⟩ []
  { s with
    host := { s.host with settings := { s.host.settings with
      kc := 30, kt := 12, gp := 250, hp := 900, west := some ⟨⟨0, 32⟩, 3⟩ } }
    mnt := { s.mnt with
      drives := s.mnt.drives.map fun r => { r with position := some ⟨6, 20⟩ }
      mounts := [MountRec.make ⟨4, 1⟩ terms 0 2100] }
    seq := { s.seq with ref := some ⟨30, 40⟩ } }

/-- Section 4.8.1: station 5's bid for a read from station 3 is 5,480. -/
theorem test_relayed_estimate : bidder.estimate false ⟨some 3, 1234, false, 2⟩ 0 = 5480 := by decide

/-- 06_arm_orders_and_label_reading.md, section 6.5.1: the check symbols of TQ4071, and its two readings. -/
theorem test_label_readings : (⟨29, 26, 4, 0, 7, 1⟩ : Volser).check1 = 30 ∧ (⟨29, 26, 4, 0, 7, 1⟩ : Volser).check2 = 23
    ∧ labelSearch (some ⟨29, 26, 4, 0, 7, 1⟩) ⟨0, false⟩ [0, 7, 1, 30, 23, 29, 26, 4] = .found ⟨5, false⟩
    ∧ candidateValid [30, 1, 7, 0, 4, 26, 29, 23] ⟨3, false⟩ = false := by decide

/-- 09_reel_wear_monitor.md, section 9.6: the window of 45,000 blocks and 115 recoveries is suspect, and one of 40,000 and 99 is not. -/
theorem test_suspect_windows : (⟨4, 4, 45000, 115, 0, .none, none⟩ : WearRec).suspect 25 = true
    ∧ (⟨8, 4, 40000, 99, 1, .none, none⟩ : WearRec).suspect 25 = false := by decide

/-- Section 9.6: pass 8 makes the second suspect window; the slot is ordered out for its streak. -/
theorem test_second_suspect_window :
    after (exec .wearHandover (worn ⟨7, 3, 30000, 75, 1, .none, none⟩ ⟨10000, 0, 26, false⟩)) (fun t =>
      t.wearOf 7 = ⟨8, 0, 0, 0, 2, .ordered, some .streak⟩ && (t.entry 7).map (·.state) = some .retiring) := by decide

/-- The settings of section 10.2.1. -/
def tariff : Settings := { fresh.host.settings with rate2 := ⟨40, 12⟩, hopCharge := 15, ringCharge := 25, rate0 := ⟨65535, 65535⟩ }

/-- 10_usage_accounting.md, section 10.2.1: the relayed reel costs 246, cancelled in RING 30, and class 0 at its top is exactly
21,910,535. -/
theorem test_charges : exactCharge tariff { record with
        cls := 2, reachedMounted := true, readyTime := some 800, unloadTime := some 1554, hops := 2, ring := .inserted } = 246
    ∧ exactCharge tariff { record with cls := 2, cancelPending := true, hops := 2, ring := .absent } = 30
    ∧ exactCharge tariff { record with cls := 0, reachedMounted := true, readyTime := some 0, unloadTime := some 20000 } = 21910535 := by
  decide

/-- R187: a mount lost while it loads, and then unloaded, is accounted for with its unload time alone. -/
theorem test_unload_time_alone :
    let r := accountRecord 0 41 tariff { record with failure := some .driveLost, unloadTime := some 258 }
    (r.readyTime = none ∧ r.unloadTime = some 258) ∧ (r.bytes.drop 19).take 8 = [0, 0, 0, 0, 0, 0, 1, 2] := by decide

/-- 10_usage_accounting.md, section 10.5.1: 496 withdraws, and a drain to 113 with 15 live records restores. -/
theorem test_spool_states : spoolNext .drainWanted 480 16 384 128 = .withdrawn ∧ spoolNext .drainWanted 480 15 384 128 = .drainWanted
    ∧ spoolNext .withdrawn 461 15 384 128 = .withdrawn ∧ spoolNext .withdrawn 113 15 384 128 = .normal := by decide

/-- 01_reels_and_the_directory.md, section 1.8: DIR WRITE of slot 1,234 with TQ4071 in CONFIG. -/
theorem test_dir_write :
    after (exec (.dirWrite 4 [4, 210, 29, 26, 4, 0, 7, 1, 2, 0]) fresh) (fun t =>
      t.entry 1234 = some ⟨⟨29, 26, 4, 0, 7, 1⟩, 2, false, .home, none⟩
        && t.host.reports = [.answer 4 (.newEntry 1234 none)]) := by decide

/-- 01_reels_and_the_directory.md, section 1.8: the HOLDING heard at station 5 is learnt with 600 s. -/
theorem test_holding_is_learnt :
    after (exec (.holdingReceived (frame (some 5) 3 1 (.holding ⟨5, 12⟩ ⟨29, 26, 4, 0, 7, 1⟩ 1234 2 false .home))) running) (fun t =>
      t.dir.learnt = [(0, ⟨⟨29, 26, 4, 0, 7, 1⟩, 3, 1234, false, 2, .home, 600⟩)]) := by decide

end Sys2Proof.Tests
end

/-! A BID entering the bid list of its request (R56). -/

namespace Sys2Proof.Machine

/-! ### The bid list -/

/-- The order of a bid list: ascending estimate, and ascending station for equal estimates (R56). -/
def bidLe (x y : Bid) : Prop := x.estimate < y.estimate ∨ (x.estimate = y.estimate ∧ x.station ≤ y.station)

theorem bidLe_trans {x y z : Bid} (hxy : bidLe x y) (hyz : bidLe y z) : bidLe x z := by
  unfold bidLe at *
  omega

theorem bidLe_of_not_bidLe {x y : Bid} (h : ¬ bidLe y x) : bidLe x y := by
  unfold bidLe at *
  omega

/-- A bid goes behind an entry that does not come after it. -/
theorem insertBid_cons_of_le {b c : Bid} (l : List Bid) (h : bidLe c b) : insertBid b (c :: l) = c :: insertBid b l :=
  if_neg (by unfold bidLe at h; omega)

/-- A bid goes in front of the first entry that comes after it. -/
theorem insertBid_cons_of_not_le {b c : Bid} (l : List Bid) (h : ¬ bidLe c b) : insertBid b (c :: l) = b :: c :: l :=
  if_pos (by unfold bidLe at h; omega)

/-- Insertion adds exactly the bid. -/
theorem insertBid_perm (b : Bid) (l : List Bid) : (insertBid b l).Perm (b :: l) := by
  induction l with
  | nil => exact .refl _
  | cons c l ih =>
    by_cases h : bidLe c b
    · calc insertBid b (c :: l) = c :: insertBid b l := insertBid_cons_of_le l h
        List.Perm _ (c :: b :: l) := ih.cons c
        List.Perm _ (b :: c :: l) := .swap b c l
    · rw [insertBid_cons_of_not_le l h]

theorem insertBid_pairwise {b : Bid} {l : List Bid} (hl : l.Pairwise bidLe) : (insertBid b l).Pairwise bidLe := by
  induction l with
  | nil => exact List.pairwise_singleton _ _
  | cons c l ih =>
    obtain ⟨hc, hl'⟩ := List.pairwise_cons.mp hl
    by_cases h : bidLe c b
    · rw [insertBid_cons_of_le l h, List.pairwise_cons]
      refine ⟨fun x hx => ?_, ih hl'⟩
      obtain rfl | hx := List.mem_cons.mp ((insertBid_perm b l).mem_iff.mp hx)
      · exact h
      · exact hc x hx
    · have hb : bidLe b c := bidLe_of_not_bidLe h
      rw [insertBid_cons_of_not_le l h, List.pairwise_cons]
      refine ⟨fun x hx => ?_, hl⟩
      obtain rfl | hx := List.mem_cons.mp hx
      · exact hb
      · exact bidLe_trans hb (hc x hx)

/-! ### The BID taken -/

theorem onBid_of_not_offered {id : ReqId} {s : State} (h : ∀ o, s.origin id = some o → o.state ≠ .offered)
    (src estimate drive : Nat) : onBid src id estimate drive s = s := by
  unfold onBid
  split
  next o ho => exact if_neg (h o ho)
  next => rfl

theorem onBid_of_offered {id : ReqId} {s : State} {o : OriginRec} (ho : s.origin id = some o) (hs : o.state = .offered)
    (src estimate drive : Nat) : onBid src id estimate drive s = updOrigin id (fun o => { o with
      bids := insertBid ⟨src, estimate, drive⟩ (o.bids.filter fun b => b.station ≠ src) }) s := by
  simp [onBid, ho, hs, bne, beq_eq_decide]

/-- A change of origin records touches nothing the arm or the display reads. -/
theorem updOrigin_settled (id : ReqId) (g : OriginRec → OriginRec) (s : State) : (updOrigin id g s).settled = s.settled :=
  settled_congr rfl rfl rfl rfl rfl rfl rfl rfl

theorem onBid_settled (src : Nat) (id : ReqId) (estimate drive : Nat) (s : State) :
    (onBid src id estimate drive s).settled = s.settled := by
  unfold onBid
  split
  · split
    · exact updOrigin_settled ..
    · rfl
  · rfl

@[simp] theorem acked_origin (s : State) (f : RawFrame) (id : ReqId) : (s.acked f).origin id = s.origin id := rfl

theorem hears_of_accepts {s : State} {f : RawFrame} {b : Body} (h : s.accepts f b = true) : s.hears b.kind f = true := by
  simp only [State.accepts, Bool.and_eq_true] at h
  obtain ⟨⟨heard, -⟩, -⟩ := h
  exact heard

/-- An accepted unicast frame is one event: the work of its block, when that leaves the part settled (R28, R32). -/
theorem runEvent_hear_accepts {s t : State} {k : FrameKind} {f : RawFrame} {b : Body} (h : s.accepts f b = true)
    (hk : b.kind = k) (hb : k.broadcast = false) (ha : k ≠ .ack) (ht : actOn f.src.toNat b (s.acked f) = t)
    (hs : t.settled = true) : runEvent (hear k f) s = .next t := by
  subst hk
  obtain ⟨hr, -⟩ := hears_parts (hears_of_accepts h)
  rw [← hear_accepts h hb ha] at ht
  rw [← ht] at hs ⊢
  exact runEvent_of_settled hr hs

/-- The BID row of the table. -/
theorem exec_bidReceived (f : RawFrame) (s : State) : exec (.bidReceived f) s = runEvent (hear .bid f) s := rfl

/-- The BID row on an accepted BID, in a settled state (R56). -/
theorem exec_bidReceived_accepts {s : State} {f : RawFrame} {id : ReqId} {e d : Nat} (hs : s.settled = true)
    (h : s.accepts f (.bid id e d) = true) :
    exec (.bidReceived f) s = .next (onBid f.src.toNat id e d (s.acked f)) := by
  rw [exec_bidReceived]
  exact runEvent_hear_accepts h rfl rfl nofun rfl (by rw [onBid_settled, acked_settled, hs])

/-- Settles O39: the row is `onBid` on the acknowledged state, and `insertBid` keeps the order of the bid list and adds the bid. -/
theorem bidEntersInOrder : Obligations.BidEntersInOrder := by
  unfold Obligations.BidEntersInOrder
  refine ⟨fun s f id e d hs h => ⟨fun hn => ?_, fun o ho hst => ?_⟩, fun b l => ⟨insertBid_pairwise, insertBid_perm b l⟩⟩
  · rw [exec_bidReceived_accepts hs h, onBid_of_not_offered (by simpa using hn)]
  · rw [exec_bidReceived_accepts hs h, onBid_of_offered (by simpa using ho) hst]

end Sys2Proof.Machine

/-! The accounting commands DRAIN and ACCOUNT CLEAR (R191, R193). -/

namespace Sys2Proof.Machine

/-! ### A host command row that is run -/

/-- A host command of good form, in a station state that takes it, on a ready port: its row ends with what its action leaves, when
that is settled (R196). -/
theorem hostRow_runs {s t : State} (h : s.ready = true) {i : Instr} {code : Nat} {tag : Byte} {p : List Byte}
    (hi : hostRow i = some (code, tag, p)) (hr : CmdRec.isReset ⟨BitVec.ofNat 8 code, tag, p⟩ = false)
    (hf : formFits (BitVec.ofNat 8 code).toNat p = true) (hst : takenIn (BitVec.ofNat 8 code).toNat s.host.state = true)
    (ht : runCommand (BitVec.ofNat 8 code).toNat tag p s.opened = t) (hs : t.settled = true) : exec i s = .next t := by
  have hrun : takeCommand ⟨BitVec.ofNat 8 code, tag, p⟩ s.opened = t := (takeCommand_run _ _ hf hst).trans ht
  rw [← hrun] at hs ⊢
  exact hostRow_next h hi hr hs

/-- The arm and the display read neither the host port nor the accounts. -/
theorem settled_of_host_acct {s t : State} (h : t = { s with host := t.host, acct := t.acct }) : t.settled = s.settled := by
  rw [h]
  exact settled_congr rfl rfl rfl rfl rfl rfl rfl rfl

/-! ### The spool -/

/-- An evaluation of the spool state touches the accounting block only. -/
theorem evalSpool_eq (s : State) : evalSpool s = { s with acct := (evalSpool s).acct } := by
  unfold evalSpool
  dsimp only
  split
  · rfl
  · split <;> rfl

@[simp] theorem evalSpool_settled (s : State) : (evalSpool s).settled = s.settled := by
  rw [evalSpool_eq]
  exact settled_of_host_acct rfl

/-- Records pushed one after the other stand at the tail of the report FIFO in their order (R195). -/
theorem foldl_pushReport {α : Type} (f : α → Report) (l : List α) (s : State) :
    l.foldl (fun s r => pushReport (f r) s) s = { s with host := { s.host with reports := s.host.reports ++ l.map f } } := by
  induction l generalizing s with
  | nil => simp
  | cons r l ih =>
    rw [List.foldl_cons, ih]
    simp [pushReport]

/-- The records a DRAIN moves: the smallest of its count, the records held, and the free report places less the answer's (R191). -/
def State.drainCount (s : State) (k : Nat) : Nat := min k (min s.held (s.reportRoom - 1))

/-- The state once a DRAIN has answered and moved its records, before the spool state is evaluated (R191). -/
def State.drained (s : State) (tag : Byte) (m : Nat) : State :=
  { s with
    host := { s.host with reports := s.host.reports ++ [.answer tag (.drained m (s.held - m))]
      ++ (s.acct.spool.take m).map (Report.accounting tag) }
    acct := { s.acct with spool := s.acct.spool.drop m } }

theorem drained_settled (s : State) (tag : Byte) (m : Nat) : (s.drained tag m).settled = s.settled :=
  settled_of_host_acct rfl

theorem cmdDrain_eq (tag : Byte) (k : Nat) (s : State) :
    cmdDrain tag k s = if s.drainCount k = 0 then s.drained tag (s.drainCount k)
      else evalSpool (s.drained tag (s.drainCount k)) := by
  simp only [cmdDrain, foldl_pushReport]
  rfl

theorem cmdDrain_settled (tag : Byte) (k : Nat) (s : State) : (cmdDrain tag k s).settled = s.settled := by
  rw [cmdDrain_eq]
  split
  · exact drained_settled ..
  · rw [evalSpool_settled, drained_settled]

theorem takenIn_drain (st : StationState) : takenIn 18 st = true := by cases st <;> rfl

/-- The row of DRAIN on a ready, settled port runs the command (R191, R196). -/
theorem exec_drain {s : State} (hs : s.settled = true) (h : s.ready = true) (tag k : Byte) :
    exec (.drain tag [k]) s = .next (cmdDrain tag k.toNat s.opened) :=
  hostRow_runs (code := 18) h rfl rfl rfl (takenIn_drain _) rfl (by rw [cmdDrain_settled, opened_settled, hs])

/-- Settles O28: the row is `cmdDrain` on the opened port, whose pushes append the records moved behind the answer. -/
theorem drainMovesOldestRecords : Obligations.DrainMovesOldestRecords := by
  unfold Obligations.DrainMovesOldestRecords
  intro s tag k hs h
  rw [exec_drain hs h, cmdDrain_eq]
  rfl

/-! ### The accounts -/

@[simp] theorem account_updAccount_same (n : Nat) (f : Account → Account) (s : State) :
    (updAccount n f s).account n = f (s.account n) := tableGet_set_same ..

theorem account_updAccount_other {n k : Nat} (f : Account → Account) (s : State) (h : k ≠ n) :
    (updAccount n f s).account k = s.account k :=
  congrArg (·.getD Account.zero) (tableGet_set_other _ _ _ h)

theorem tableGet_of_not_mem_keys {α : Type} {t : Table α} {k : Nat} (h : k ∉ t.map (·.1)) : tableGet t k = none := by
  induction t with
  | nil => rfl
  | cons e t ih =>
    rw [List.map_cons, List.mem_cons, not_or] at h
    obtain ⟨hk, ht⟩ := h
    exact (if_neg hk).trans (ih ht)

/-- An account that the table does not list is all zero. -/
theorem account_of_not_mem_keys {s : State} {k : Nat} (h : k ∉ s.acct.accounts.map (·.1)) : s.account k = Account.zero := by
  rw [State.account, tableGet_of_not_mem_keys h]
  rfl

theorem Account.cleared_eq (a : Account) : a.cleared = ⟨0, 0, 0, 0, false, a.openMounts⟩ := rfl

/-- An account has a total when clearing it would change one of the five (R193). -/
theorem Account.hasTotals_eq (a : Account) : a.hasTotals = decide
    (a.mounts ≠ 0 ∨ a.cancels ≠ 0 ∨ a.operatorActions ≠ 0 ∨ a.charge ≠ 0 ∨ a.saturated = true) := by
  obtain ⟨mounts, cancels, actions, charge, saturated, openMounts⟩ := a
  rw [Bool.eq_iff_iff]
  simp only [Account.hasTotals, Account.cleared_eq, bne_iff_ne, ne_eq, Account.mk.injEq, decide_eq_true_eq]
  grind

/-- The accounts of a list of numbers cleared one after the other, as ACCOUNT CLEAR of ALL does with the numbers it lists (R193). -/
def clearAccounts (l : List Nat) (s : State) : State := l.foldl (fun s n => updAccount n Account.cleared s) s

/-- Clearing accounts touches the account table only. -/
theorem clearAccounts_eq (l : List Nat) (s : State) :
    clearAccounts l s = { s with acct := { s.acct with accounts := (clearAccounts l s).acct.accounts } } := by
  induction l generalizing s with
  | nil => rfl
  | cons n l ih => exact (ih (updAccount n Account.cleared s)).trans rfl

/-- The numbers listed read as cleared, and every other account as before. -/
theorem account_clearAccounts (l : List Nat) (s : State) (k : Nat) :
    (clearAccounts l s).account k = if k ∈ l then (s.account k).cleared else s.account k := by
  induction l generalizing s with
  | nil => rfl
  | cons n l ih =>
    have hstep : (clearAccounts (n :: l) s).account k = (clearAccounts l (updAccount n Account.cleared s)).account k := rfl
    rw [hstep, ih]
    by_cases hk : k = n
    · subst hk
      simp [Account.cleared_eq]
    · simp [hk, account_updAccount_other _ _ hk]

/-- With every number the table lists cleared, every account reads as cleared (R193). -/
theorem account_clearAccounts_keys (s : State) (k : Nat) :
    (clearAccounts (s.acct.accounts.map (·.1)) s).account k = (s.account k).cleared := by
  rw [account_clearAccounts]
  split
  · rfl
  · next hk => rw [account_of_not_mem_keys hk]; rfl

/-! ### ACCOUNT CLEAR -/

theorem takenIn_accountClear (st : StationState) : takenIn 20 st = true := by cases st <;> rfl

/-- The row of ACCOUNT CLEAR on a ready port runs the command, when it leaves a settled state (R193, R196). -/
theorem exec_accountClear {s t : State} {tag form n : Byte} (h : s.ready = true)
    (ht : cmdAccountClear tag form.toNat n.toNat s.opened = t) (hs : t.settled = true) :
    exec (.accountClear tag [form, n]) s = .next t :=
  hostRow_runs (code := 20) h rfl rfl rfl (takenIn_accountClear _) ht hs

theorem cmdAccountClear_one (tag : Byte) (n : Nat) (s : State) :
    cmdAccountClear tag 1 n s = (updAccount n Account.cleared s).answered tag (.accountCleared n (s.account n)) := rfl

theorem cmdAccountClear_all (tag : Byte) (n : Nat) (s : State) :
    cmdAccountClear tag 2 n s = (clearAccounts (s.acct.accounts.map (·.1)) s).answered tag
      (.accountsCleared (s.acct.accounts.filter fun e => e.2.hasTotals).length) := rfl

theorem cmdAccountClear_other {form : Nat} (h1 : form ≠ 1) (h2 : form ≠ 2) (tag : Byte) (n : Nat) (s : State) :
    cmdAccountClear tag form n s = s.answered tag (.badField none) := by
  simp [cmdAccountClear, h1, h2, answer_eq]

/-- Settles O30: one account is a write to the account table, ALL is one write for each number it lists, and what is read after them
is the cleared account. -/
theorem accountClearKeepsOpenMounts : Obligations.AccountClearKeepsOpenMounts := by
  unfold Obligations.AccountClearKeepsOpenMounts
  intro s tag hs h
  have hset : ∀ t : State, t = { s with host := t.host, acct := t.acct } → t.settled = true :=
    fun t ht => (settled_of_host_acct ht).trans hs
  refine ⟨fun n => ?one, fun x => ?all, fun a x h1 h2 => ?other⟩
  case one =>
    refine ⟨_, exec_accountClear h (cmdAccountClear_one ..) (hset _ rfl), account_updAccount_same .., fun k hk => ?_, rfl⟩
    exact account_updAccount_other _ s.opened hk
  case all =>
    have hcleared := clearAccounts_eq (s.opened.acct.accounts.map (·.1)) s.opened
    refine ⟨_, exec_accountClear h (cmdAccountClear_all ..) ?_, fun _ k => account_clearAccounts_keys s.opened k, ?_⟩
    · rw [answered_settled, hcleared]
      exact hset _ rfl
    · rw [hcleared]
      simp only [Account.hasTotals_eq]
      rfl
  case other =>
    have hform : ∀ c : Byte, a ≠ c → a.toNat ≠ c.toNat := fun c hc e => hc (BitVec.eq_of_toNat_eq e)
    exact exec_accountClear h (cmdAccountClear_other (hform 1 h1) (hform 2 h2) ..) (hset _ rfl)

end Sys2Proof.Machine

/-! A step, device reset, and what every event ends with (R116, R120, R157, R158, R204). -/

namespace Sys2Proof.Machine

/-! ### A step -/

theorem step_cons {c : Instr} {rest : List Instr} {s : State} (h : s.pending = c :: rest) :
    step s = exec c { s with pending := rest } := by
  rw [step, h]

theorem step_nil {s : State} (h : s.pending = []) : step s = .next s := by
  rw [step, h]

/-- Settles O1: `step` is the match on the queue. -/
theorem stepRunsFrontCommand : Obligations.StepRunsFrontCommand :=
  ⟨fun _ _ _ h => step_cons h, fun _ h => step_nil h⟩

/-- An event that every command's meaning is: a device reset, a release of the reset pin, the door switch, or a change that the arm's
and the display's choice follow unless the reset pin is held. -/
theorem exec_shape (c : Instr) (s : State) :
    (∃ p h, c = .deviceReset p h ∧ exec c s = .next (State.resetWith ⟨p, s.pins.doorOpen, h⟩ s.pending))
      ∨ (c = .resetPinRelease ∧ exec c s = .next { s with pins := { s.pins with resetHeld := false } })
      ∨ (∃ o, c = .doorSwitch o ∧ exec c s = .next (settle false (doorMoved o s)))
      ∨ ∃ (f : State → State) (k : Bool), exec c s = .next (if s.pins.resetHeld then s else settle k (f s)) := by
  cases c
  case deviceReset p h => exact .inl ⟨p, h, rfl, rfl⟩
  case resetPinRelease => exact .inr (.inl ⟨rfl, rfl⟩)
  case doorSwitch o => exact .inr (.inr (.inl ⟨o, rfl, rfl⟩))
  case doneKey | cannotKey | nextKey => exact .inr (.inr (.inr ⟨_, true, rfl⟩))
  all_goals exact .inr (.inr (.inr ⟨_, false, rfl⟩))

/-! ### Device reset -/

theorem resetWith_safe (p : Pins) (c : List Instr) : (State.resetWith p c).safe = true := by
  have hn : (Straps.sample p.straps).address ≤ 15 := by simp only [Straps.sample]; omega
  have hp : (State.resetWith p c).placesFit = true := by
    exact decide_eq_true hn
  simp only [State.safe, resetWith_settled, hp, Bool.true_and]
  rfl

theorem resetWith_creditLaw (p : Pins) (c : List Instr) : (State.resetWith p c).creditLaw = true := by
  have hf (d : Side) : (State.resetWith p c).creditFits d = true := by
    cases d <;> simp [State.creditFits, State.resetWith, State.side, LaneUnit.reset, SideRec.fresh, SideRec.reserved]
  simp only [State.creditLaw, hf, Bool.and_true]
  rfl

theorem resetWith_drive {p : Pins} {c : List Instr} {d : Nat} {r : DriveRec} (h : (State.resetWith p c).drive d = some r) :
    r = DriveRec.fresh := by
  simp only [State.drive, State.resetWith, MountUnit.reset] at h
  exact List.eq_of_mem_replicate (List.mem_of_getElem? h)

theorem resetWith_mountsAgree (p : Pins) (c : List Instr) : (State.resetWith p c).mountsAgree := by
  refine ⟨⟨List.nodup_nil, fun d r id hd hr => ?_, fun m hm => nomatch hm⟩, fun n => rfl⟩
  rw [resetWith_drive hd] at hr
  cases hr

theorem resetWith_volsersOnce (p : Pins) (c : List Instr) : (State.resetWith p c).volsersOnce = true := rfl

/-- Settles O2: every table is empty after a reset, and an address is four bits. -/
theorem resetIsSafe : Obligations.ResetIsSafe :=
  have all (p : Pins) (c : List Instr) := And.intro (resetWith_safe p c)
    ⟨resetWith_volsersOnce p c, resetWith_creditLaw p c, resetWith_mountsAgree p c⟩
  ⟨all, all Pins.initial []⟩

end Sys2Proof.Machine


namespace Sys2Proof.Machine

/-! ### The arm's choice (R116, R120, R121) -/

/-- When an order is eligible, written out (R121). -/
theorem eligible_iff (s : State) (o : ArmOrder) : s.eligible o = true ↔
    ¬ (s.prm.doorOpen = true ∧ (o.src = .cell ∨ o.dst = .cell)) ∧ o.waitingCell = false
      ∧ ((∃ d, o.dst = .mouth d) → o.heldCredit = true) ∧ o.laneRetry = false := by
  have hm : o.toMouth = true ↔ ∃ d, o.dst = .mouth d := by
    unfold ArmOrder.toMouth
    split <;> simp_all
  simp only [State.eligible, ArmOrder.touchesCell, Bool.and_eq_true, Bool.not_eq_true', Bool.and_eq_false_iff,
    Bool.or_eq_false_iff, decide_eq_false_iff_not, Bool.not_eq_false', ← hm]
  cases o.toMouth <;> cases o.heldCredit <;> cases s.prm.doorOpen <;> simp <;> tauto

/-- The selection answers an order that goes before every earlier one of the list and that no later one goes before. -/
theorem firstByRank_eq {pre post : List ArmOrder} {o : ArmOrder} (hpre : ∀ q ∈ pre, o.before q = true)
    (hpost : ∀ q ∈ post, q.before o = false) : firstByRank (pre ++ o :: post) = some o := by
  induction pre with
  | nil =>
    rw [List.nil_append, firstByRank]
    cases h : firstByRank post with
    | none => rfl
    | some p =>
      obtain ⟨a, b, rfl, -⟩ := firstByRank_some h
      simp [hpost p (by simp)]
  | cons q pre ih =>
    rw [List.cons_append, firstByRank, ih fun q hq => hpre q (by simp [hq])]
    simp [hpre q (by simp)]

/-- The queued order that R120 chooses, from where it stands among the eligible. -/
theorem choice_eq {s : State} {pre post : List ArmOrder} {o : ArmOrder} (hq : s.seq.queue = pre ++ o :: post)
    (ho : s.eligible o = true) (hpre : ∀ q ∈ pre, s.eligible q = true → o.before q = true)
    (hpost : ∀ q ∈ post, s.eligible q = true → q.before o = false) : s.choice = some o := by
  rw [State.choice, hq, List.filter_append, List.filter_cons_of_pos ho]
  exact firstByRank_eq (fun q h => hpre q (List.mem_of_mem_filter h) (List.of_mem_filter h))
    fun q h => hpost q (List.mem_of_mem_filter h) (List.of_mem_filter h)

/-- An order with a number of its own leaves the queue alone. -/
theorem filter_number {pre post : List ArmOrder} {o : ArmOrder} (h : ∀ q ∈ pre ++ post, q.number ≠ o.number) :
    (pre ++ o :: post).filter (fun q => q.number != o.number) = pre ++ post := by
  have keep : (pre ++ post).filter (fun q => q.number != o.number) = pre ++ post :=
    List.filter_eq_self.mpr fun q hq => bne_iff_ne.mpr (h q hq)
  simpa [List.filter_append] using keep

/-- An idle arm with no eligible order queued chooses none. -/
theorem choice_none {s : State} (h : ∀ o ∈ s.seq.queue, ¬ s.eligible o = true) : s.choice = none := by
  rw [State.choice, List.filter_eq_nil_iff.mpr h]
  rfl

theorem selectArm_idle {s : State} (h : s.seq.arm = .idle) : selectArm s = match s.choice with
    | some o => issue o { s with seq := { s.seq with queue := s.seq.queue.filter fun p => p.number != o.number } }
    | none => s := by
  unfold selectArm
  simp only [h] <;> rfl

theorem selectArm_holding {s : State} {o : ArmOrder} (h : s.seq.arm = .holding) (hi : s.seq.inArm = some o) :
    selectArm s = if s.eligible o then issue o s else s := by
  rw [selectArm, h]
  simp only [hi]

/-- With nothing eligible the arm is settled. -/
theorem armSettled_iff (s : State) : s.armSettled = true ↔
    (s.seq.arm = .idle → ∀ o ∈ s.seq.queue, ¬ s.eligible o = true)
      ∧ (s.seq.arm = .holding → ∀ o, s.seq.inArm = some o → ¬ s.eligible o = true) := by
  have hc : s.choice = none ↔ ∀ o ∈ s.seq.queue, ¬ s.eligible o = true :=
    ⟨fun h => List.filter_eq_nil_iff.mp (firstByRank_none h), choice_none⟩
  unfold State.armSettled
  split
  · simp_all
  · split <;> simp_all
  all_goals simp_all

/-! ### What the console shows (R157, R158) -/

theorem mem_displayOrder (s : State) (p : Prompt) : p ∈ s.displayOrder ↔ p ∈ s.prm.prompts ∧ p.displayable = true := by
  have hk : p.kind.priority ∈ [5, 4, 3, 2, 1] := by cases p.kind <;> decide
  simp only [State.displayOrder, List.mem_flatMap, State.shownAt, List.mem_filter, Bool.and_eq_true, beq_iff_eq]
  exact ⟨fun ⟨_, _, hp, hd, _⟩ => ⟨hp, hd⟩, fun ⟨hp, hd⟩ => ⟨_, hk, hp, hd, rfl⟩⟩

theorem displayOrder_nil {s : State} (h : ∀ q ∈ s.prm.prompts, ¬ q.displayable = true) : s.displayOrder = [] :=
  List.eq_nil_iff_forall_not_mem.mpr fun q hq =>
    have ⟨hm, hd⟩ := (mem_displayOrder s q).mp hq
    h q hm hd

/-- The prompts of a priority that none displayable has. -/
theorem shownAt_nil {s : State} {k : Nat} (h : ∀ q ∈ s.prm.prompts, q.displayable = true → q.kind.priority < k) :
    s.shownAt k = [] :=
  List.filter_eq_nil_iff.mpr fun q hq hk => by
    simp only [Bool.and_eq_true, beq_iff_eq] at hk
    exact absurd hk.2 (Nat.ne_of_lt (h q hq hk.1))

/-- The head of the display order: of the highest priority, the one that entered first. -/
theorem displayHead_eq {s : State} {pre post : List Prompt} {p : Prompt} (hp : s.prm.prompts = pre ++ p :: post)
    (hd : p.displayable = true) (hpre : ∀ q ∈ pre, q.displayable = true → q.kind.priority < p.kind.priority)
    (hpost : ∀ q ∈ post, q.displayable = true → q.kind.priority ≤ p.kind.priority) : s.displayHead = some p.number := by
  have hall : ∀ q ∈ s.prm.prompts, q.displayable = true → q.kind.priority ≤ p.kind.priority := by
    intro q hq hqd
    rw [hp, List.mem_append, List.mem_cons] at hq
    obtain hq | rfl | hq := hq
    · exact Nat.le_of_lt (hpre q hq hqd)
    · exact Nat.le_refl _
    · exact hpost q hq hqd
  have hnone {k : Nat} (hk : p.kind.priority < k) : s.shownAt k = [] :=
    shownAt_nil fun q hq hqd => Nat.lt_of_le_of_lt (hall q hq hqd) hk
  have hhead : ∃ t, s.shownAt p.kind.priority = p :: t := by
    refine ⟨post.filter fun q => q.displayable && q.kind.priority == p.kind.priority, ?_⟩
    rw [State.shownAt, hp, List.filter_append, List.filter_cons_of_pos (by simp [hd]),
      List.filter_eq_nil_iff.mpr, List.nil_append]
    intro q hq hk
    simp only [Bool.and_eq_true, beq_iff_eq] at hk
    exact absurd hk.2 (Nat.ne_of_lt (hpre q hq hk.1))
  obtain ⟨t, ht⟩ := hhead
  have hr : p.kind.priority = 5 ∨ p.kind.priority = 4 ∨ p.kind.priority = 3 ∨ p.kind.priority = 2 ∨ p.kind.priority = 1 := by
    cases p.kind <;> decide
  rw [State.displayHead, State.displayOrder]
  obtain h | h | h | h | h := hr <;> rw [h] at ht hnone <;> simp [ht, hnone]

/-- The display shows a prompt that it can show, browsing, and keeps it. -/
theorem refreshDisplay_kept {s : State} {q : Prompt} (hb : s.prm.browsing = true) (hq : q ∈ s.prm.prompts)
    (hd : q.displayable = true) (hs : s.prm.shown = some q.number) (k : Bool) : refreshDisplay k s = s := by
  refine refreshDisplay_of_settled ?_ k
  simp only [State.displaySettled, hs, hb, if_true, List.any_eq_true, decide_eq_true_eq]
  exact ⟨q, (mem_displayOrder s q).mpr ⟨hq, hd⟩, rfl⟩

/-- A display that is not browsing on a prompt it can show takes the head of the display order. -/
theorem refreshDisplay_head {s : State} (k : Bool)
    (h : s.prm.browsing = false ∨ ∀ q ∈ s.prm.prompts, q.displayable = true → s.prm.shown ≠ some q.number) :
    refreshDisplay k s = match s.displayHead with
      | none => { s with prm := { s.prm with shown := none, browsing := false, unconfirmed := false } }
      | some n => { s with prm := { s.prm with
          shown := some n, browsing := false
          unconfirmed := s.prm.unconfirmed || (!k && s.prm.shown.isSome && s.prm.shown != some n) } } := by
  have hk : (s.prm.browsing && s.displayOrder.any fun p => s.prm.shown = some p.number) = false := by
    rw [Bool.and_eq_false_iff]
    refine h.imp_right fun h => List.any_eq_false.mpr fun q hq => ?_
    obtain ⟨hm, hd⟩ := (mem_displayOrder s q).mp hq
    simpa using h q hm hd
  unfold refreshDisplay
  simp only [hk, Bool.false_eq_true, if_false] <;> rfl

/-! ### The end of an event -/

theorem settle_prm (k : Bool) (s : State) : (settle k s).prm = (refreshDisplay k s).prm := by
  rw [settle, selectArm_eq s]
  unfold refreshDisplay
  simp only [show State.displayOrder { s with seq := (selectArm s).seq } = s.displayOrder from rfl,
    show State.displayHead { s with seq := (selectArm s).seq } = s.displayHead from rfl]
  split <;> rename_i h <;> simp only [h]

theorem settle_eq (k : Bool) (s : State) : settle k s = { s with seq := (settle k s).seq, prm := (settle k s).prm } := by
  have h : settle k s = { settle k s with seq := (settle k s).seq, prm := (settle k s).prm } := rfl
  rw [h]
  simp only [settle_pending, settle_pins, settle_host, settle_dir, settle_line, settle_neg, settle_mnt, settle_lane, settle_wear,
    settle_acct]

/-- Every step of a settled part leaves it settled. -/
theorem step_settled {s t : State} (hs : s.settled = true) (h : step s = .next t) : t.settled = true := by
  match hp : s.pending with
  | [] =>
    rw [step_nil hp] at h
    cases h
    exact hs
  | c :: rest =>
    rw [step_cons hp] at h
    have hs' : State.settled { s with pending := rest } = true := hs
    obtain ⟨p, x, -, he⟩ | ⟨-, he⟩ | ⟨o, -, he⟩ | ⟨f, k, he⟩ := exec_shape c { s with pending := rest } <;>
      rw [he] at h <;> cases h
    · exact resetWith_settled _ _
    · exact hs'
    · exact settle_settled _ _
    · split
      · exact hs'
      · exact settle_settled _ _

theorem displayable_iff (p : Prompt) : p.displayable = true ↔ p.stage ≠ .waitingCell ∧ p.answer = .none := by
  simp [Prompt.displayable]

theorem ArmOrder.before_iff (p q : ArmOrder) : p.before q = true ↔
    p.rank < q.rank ∨ (p.rank = 4 ∧ q.rank = 4 ∧ p.cls.getD 0 < q.cls.getD 0) := by
  simp [ArmOrder.before, and_assoc]

theorem ArmOrder.rank_eq (o : ArmOrder) : o.rank = if o.purpose = .audit then 6 else if o.purpose = .cell then 5 else match o.src with
    | .mouth _ => 2
    | .drive _ => 3
    | .slot _ => 4
    | .cell => 5 := by
  unfold ArmOrder.rank
  cases o.purpose <;> cases o.src <;> rfl

theorem PromptKind.priority_eq (k : PromptKind) : k.priority = match k with
    | .ring => 5
    | .fetch | .unreadable => 4
    | .misfile => 3
    | .retire | .remove => 2
    | .unserved => 1 := by
  cases k <;> rfl

/-- Settles O3: what an event ends with is settled, and the arm's and the display's choice are those of R120 and R157. -/
theorem everyStepSettles : Obligations.EveryStepSettles := by
  unfold Obligations.EveryStepSettles
  simp only [← eligible_iff, ← displayable_iff]
  refine ⟨fun s t hs h => ?_, fun s k => ⟨?_, ?_, ?_, ?_, ?_, ?_, settle_eq k s⟩⟩
  · have ht := step_settled hs h
    have ha := ht
    rw [State.settled, Bool.and_eq_true] at ha
    exact ⟨ht, (armSettled_iff t).mp ha.1⟩
  · intro pre o post ha hq hn ho hpre hpost
    have hc : s.choice = some o := by
      refine choice_eq hq ho (fun q hm he => ?_) fun q hm he => Bool.eq_false_iff.mpr fun hb => ?_
      · rw [ArmOrder.before_iff, ArmOrder.rank_eq, ArmOrder.rank_eq]
        exact hpre q hm he
      · rw [ArmOrder.before_iff, ArmOrder.rank_eq, ArmOrder.rank_eq] at hb
        exact hpost q hm he hb
    rw [settle_seq, selectArm_idle ha]
    simp only [hc, hq, filter_number hn]
    rfl
  · intro o ha hi ho
    rw [settle_seq, selectArm_holding ha hi, if_pos ho]
    rfl
  · intro hidle hhold
    rw [settle_seq, selectArm_of_settled ((armSettled_iff s).mpr ⟨hidle, hhold⟩)]
  · intro hnone
    rw [settle_prm, refreshDisplay_head k (.inr fun q hq hd => absurd hd (hnone q hq)), State.displayHead,
      displayOrder_nil hnone]
    rfl
  · intro pre p post hp hd hpre hpost hkeep
    rw [settle_prm, refreshDisplay_head k hkeep, displayHead_eq hp hd ?_ ?_]
    · cases s.prm.shown <;> simp [bne, beq_eq_decide]
    · intro q hq hqd
      rw [PromptKind.priority_eq, PromptKind.priority_eq]
      exact hpre q hq hqd
    · intro q hq hqd
      rw [PromptKind.priority_eq, PromptKind.priority_eq]
      exact hpost q hq hqd
  · rintro hb ⟨q, hq, hd, hs⟩
    rw [settle_prm, refreshDisplay_kept hb hq hd hs]

end Sys2Proof.Machine


/-! What every operation of the part keeps: the relation `Kept a s`, which says that `s` has come from `a` without breaking an invariant
that `a` met, and how it passes through a change of one block. -/

namespace Sys2Proof.Machine

-- One proof at a time: proofs that wait for each other on threads of their own would reserve more stack than the check allows.
set_option Elab.async false

/-! ### The invariants as propositions -/

theorem placesFit_iff (s : State) : s.placesFit = true ↔
    (s.line.queue.length ≤ 16 ∧ s.seq.queue.length ≤ 12 ∧ s.neg.origins.length ≤ 16 ∧ s.neg.bids.length ≤ 32
      ∧ s.mnt.mounts.length ≤ 16 ∧ s.openPrompts ≤ 20 ∧ s.prm.remote.length ≤ 8)
    ∧ (∀ d, (s.side d).inbound.length ≤ 6 ∧ (s.side d).undelivered.length ≤ 6)
    ∧ (∀ e ∈ s.dir.learnt, e.1 < 256) ∧ (∀ o ∈ s.neg.origins, o.bidsFit = true) ∧ s.addr ≤ 15 := by
  have hside (P : SideRec → Prop) : (∀ d, P (s.side d)) ↔ P s.lane.west ∧ P s.lane.east :=
    ⟨fun h => ⟨h .west, h .east⟩, fun h d => by cases d <;> simp [State.side, h]⟩
  rw [hside fun r => r.inbound.length ≤ 6 ∧ r.undelivered.length ≤ 6]
  simp only [State.placesFit, Bool.and_eq_true, decide_eq_true_eq, List.all_eq_true]
  simp only [Config.transmitPlaces, Config.orderPlaces,
    Config.originPlaces, Config.bidPlaces, Config.mountPlaces, Config.openPromptPlaces, Config.remotePlaces, Config.lanePlaces,
    Config.learntPositions]
  tauto

theorem tablesOrdered_iff (s : State) : s.tablesOrdered = true ↔
    tableWf s.dir.catalog = true ∧ tableWf s.dir.learnt = true ∧ tableWf s.line.dedupe = true ∧ tableWf s.line.peers = true
      ∧ tableWf s.acct.accounts = true ∧ tableWf s.wear.records = true := by
  simp only [State.tablesOrdered, Bool.and_eq_true, and_assoc]

/-- A volser stands in at most one entry of a directory (R4). -/
def Directory.volsersOnce (d : Directory) : Prop := ((d.catalog.map (·.2.volser)) ++ (d.learnt.map (·.2.volser))).Nodup

theorem volsersOnce_iff (s : State) : s.volsersOnce = true ↔ s.dir.volsersOnce := decide_eq_true_iff

theorem spoolLaw_iff (s : State) : s.spoolLaw = true ↔ s.acct.spool.length + s.mnt.mounts.length ≤ 496 := decide_eq_true_iff

/-- Credit within what a side and its neighbour agreed on (R139, R152); `adv` is what the side advertises, `config` whether the station is
in CONFIG. -/
structure CreditWithin (outbound : LaneState) (agreed available reserved adv : Nat) (config : Prop) : Prop where
  sum : available + reserved ≤ agreed
  within : agreed ≤ adv
  agreeing : outbound = .agreeing → available = 0
  notFitted : outbound = .notFitted → agreed = 0
  config : config → agreed = 0

/-- A side's credit is within what was agreed on. -/
abbrev SideRec.CreditFits (r : SideRec) (adv : Nat) (config : Prop) : Prop :=
  CreditWithin r.outbound r.agreed r.available r.holders.length adv config

/-- Who holds a side's credit or asks for it. -/
def SideRec.claims (r : SideRec) : List Nat := r.holders ++ r.requests

/-- What the credit law reads of the sequencer's orders: their numbers and to-locations. -/
def State.marks (s : State) : List (Nat × Loc) := s.orders.map fun o => (o.number, o.dst)

/-- The orders of the sequencer have distinct numbers, an IDLE arm has none in hand, and the claims of a lane are those of orders bound for
its mouth, each once. -/
structure State.ClaimsLaw (s : State) : Prop where
  numbers : (s.marks.map Prod.fst).Nodup
  idle : s.seq.arm = .idle → s.seq.inArm = none
  once : ∀ d, (s.side d).claims.Nodup
  held : ∀ d, ∀ n ∈ (s.side d).claims, (n, Loc.mouth d) ∈ s.marks

/-- The credit law of both lanes as a proposition. -/
structure State.CreditLaw (s : State) : Prop where
  claims : s.ClaimsLaw
  fits : ∀ d, (s.side d).CreditFits (s.advertised d) (s.host.state = .config)

/-- The credit law reads the sequencer, the lanes and the host port. -/
theorem State.CreditLaw.congr {s t : State} (k : s.CreditLaw) (hs : t.seq = s.seq) (hl : t.lane = s.lane) (hh : t.host = s.host) :
    t.CreditLaw := by
  obtain ⟨⟨k1, k2, k3, k4⟩, k5⟩ := k
  cases s
  cases t
  cases hs
  cases hl
  cases hh
  exact ⟨⟨k1, k2, k3, k4⟩, k5⟩

theorem orderNumbers_eq (s : State) : s.orderNumbers = s.marks.map Prod.fst := by
  simp [State.orderNumbers, State.marks, Function.comp_def]

theorem mem_marks {s : State} {n : Nat} {l : Loc} : (n, l) ∈ s.marks ↔ ∃ o ∈ s.orders, o.number = n ∧ o.dst = l := by
  simp [State.marks]

theorem creditFits_iff (s : State) (d : Side) :
    s.creditFits d = true ↔ (s.side d).CreditFits (s.advertised d) (s.host.state = .config) := by
  have imp (a b : Bool) : (!a || b) = true ↔ (a = true → b = true) := by cases a <;> cases b <;> simp
  simp only [State.creditFits, Bool.and_eq_true, decide_eq_true_eq, bne, imp, beq_iff_eq]
  exact ⟨fun ⟨⟨⟨⟨h1, h2⟩, h3⟩, h4⟩, h5⟩ => ⟨h1, h2, h3, h4, h5⟩, fun h => ⟨⟨⟨⟨h.sum, h.within⟩, h.agreeing⟩, h.notFitted⟩, h.config⟩⟩

theorem creditHeld_iff (s : State) (d : Side) : s.creditHeld d = true ↔
    (s.side d).claims.Nodup ∧ ∀ n ∈ (s.side d).claims, (n, Loc.mouth d) ∈ s.marks := by
  simp only [mem_marks, State.creditHeld, Bool.and_eq_true, decide_eq_true_eq, List.all_eq_true, List.any_eq_true, SideRec.claims]

theorem creditLaw_iff (s : State) : s.creditLaw = true ↔ s.CreditLaw := by
  have hidle : (s.seq.arm != .idle || s.seq.inArm.isNone) = true ↔ (s.seq.arm = .idle → s.seq.inArm = none) := by
    cases s.seq.arm <;> simp
  simp only [State.creditLaw, Bool.and_eq_true, decide_eq_true_eq, hidle, creditFits_iff, creditHeld_iff, orderNumbers_eq]
  constructor
  · rintro ⟨⟨⟨⟨⟨hn, hi⟩, fw⟩, fe⟩, ow, hw⟩, oe, he⟩
    exact ⟨⟨hn, hi, fun | .west => ow | .east => oe, fun | .west => hw | .east => he⟩, fun | .west => fw | .east => fe⟩
  · exact fun h => ⟨⟨⟨⟨⟨h.claims.numbers, h.claims.idle⟩, h.fits _⟩, h.fits _⟩, h.claims.once _, h.claims.held _⟩,
      h.claims.once _, h.claims.held _⟩

/-! ### The relation -/

/-- `s` has come from `a` by changes that leave the host port's FIFOs alone, do not enter CONFIG and keep the invariants: each that `a` met,
`s` meets. -/
structure Kept (a s : State) : Prop where
  port : s.host.commands = a.host.commands ∧ s.host.reports = a.host.reports ∧ s.host.pointer = a.host.pointer
  places : a.placesFit = true → s.placesFit = true
  tables : a.tablesOrdered = true → s.tablesOrdered = true
  volsers : a.tablesOrdered = true → a.volsersOnce = true → s.volsersOnce = true
  spool : a.spoolLaw = true → s.spoolLaw = true
  mounts : a.mountsAgree → s.mountsAgree
  credit : a.CreditLaw → s.CreditLaw
  config : s.host.state = .config → a.host.state = .config

theorem Kept.refl (s : State) : Kept s s := ⟨⟨rfl, rfl, rfl⟩, id, id, fun _ => id, id, id, id, id⟩

theorem Kept.trans {a b c : State} (h : Kept a b) (k : Kept b c) : Kept a c where
  port := ⟨k.port.1.trans h.port.1, k.port.2.1.trans h.port.2.1, k.port.2.2.trans h.port.2.2⟩
  places := k.places ∘ h.places
  tables := k.tables ∘ h.tables
  volsers ht hv := k.volsers (h.tables ht) (h.volsers ht hv)
  spool := k.spool ∘ h.spool
  mounts := k.mounts ∘ h.mounts
  credit := k.credit ∘ h.credit
  config := h.config ∘ k.config

/-! ### Changes of one block -/

section
variable {a s : State}

/-- The pins and the commands that wait stand outside the invariants. -/
theorem Kept.outside (h : Kept a s) (p : Pins) (c : List Instr) : Kept a { s with pins := p, pending := c } :=
  h.trans ⟨⟨rfl, rfl, rfl⟩, id, id, fun _ => id, id, id, fun k => k.congr rfl rfl rfl, id⟩

/-- The host port apart from its FIFOs and straps, with no mouth changed and CONFIG not entered. -/
theorem Kept.host (h : Kept a s) (x : HostPort)
    (hp : x.commands = s.host.commands ∧ x.reports = s.host.reports ∧ x.pointer = s.host.pointer)
    (hs : x.straps = s.host.straps) (hw : x.settings.west = s.host.settings.west) (he : x.settings.east = s.host.settings.east)
    (hc : x.state = .config → s.host.state = .config) : Kept a { s with host := x } := by
  refine h.trans ⟨hp, fun k => ?_, id, fun _ => id, id, id, fun ⟨⟨k1, k2, k3, k4⟩, k⟩ => ⟨⟨k1, k2, k3, k4⟩, fun d => ?_⟩, hc⟩
  · rw [placesFit_iff] at *
    exact ⟨k.1, k.2.1, k.2.2.1, k.2.2.2.1, (congrArg Straps.address hs).le.trans k.2.2.2.2⟩
  · have hadv : State.advertised { s with host := x } d = s.advertised d := by
      cases d <;> simp [State.advertised, State.settings, Settings.mouth, hw, he]
    have f := k d
    rw [← hadv] at f
    exact ⟨f.sum, f.within, f.agreeing, f.notFitted, fun e => f.config (hc e)⟩

/-- A change of the directory. -/
theorem Kept.dir (h : Kept a s) (x : Directory) (hc : tableWf s.dir.catalog = true → tableWf x.catalog = true)
    (hl : tableWf s.dir.learnt = true → tableWf x.learnt = true)
    (hv : tableWf s.dir.catalog = true → tableWf s.dir.learnt = true → s.dir.volsersOnce → x.volsersOnce)
    (hk : (∀ e ∈ s.dir.learnt, e.1 < 256) → ∀ e ∈ x.learnt, e.1 < 256) : Kept a { s with dir := x } := by
  refine h.trans ⟨⟨rfl, rfl, rfl⟩, fun k => ?_, fun k => ?_, fun t k => ?_, id, id, fun k => k.congr rfl rfl rfl, id⟩
  · rw [placesFit_iff] at *
    exact ⟨k.1, k.2.1, hk k.2.2.1, k.2.2.2⟩
  · rw [tablesOrdered_iff] at *
    exact ⟨hc k.1, hl k.2.1, k.2.2⟩
  · rw [tablesOrdered_iff] at t
    rw [volsersOnce_iff] at *
    exact hv t.1 t.2.1 k

/-- A change of the Line Unit that keeps its tables' form and brings the transmit queue to no more than its places. -/
theorem Kept.line (h : Kept a s) (x : LineUnit) (hq : x.queue.length ≤ 16 ∨ x.queue.length ≤ s.line.queue.length)
    (hd : tableWf s.line.dedupe = true → tableWf x.dedupe = true)
    (hp : tableWf s.line.peers = true → tableWf x.peers = true) : Kept a { s with line := x } := by
  refine h.trans ⟨⟨rfl, rfl, rfl⟩, fun k => ?_, fun k => ?_, fun _ => id, id, id, fun k => k.congr rfl rfl rfl, id⟩
  · rw [placesFit_iff] at *
    exact ⟨⟨hq.elim id fun q => q.trans k.1.1, k.1.2⟩, k.2⟩
  · rw [tablesOrdered_iff] at *
    exact ⟨k.1, k.2.1, hd k.2.2.1, hp k.2.2.2.1, k.2.2.2.2⟩

/-- A change of the Negotiation Unit. -/
theorem Kept.neg (h : Kept a s) (x : Negotiation) (ho : x.origins.length ≤ 16 ∨ x.origins.length ≤ s.neg.origins.length)
    (hb : s.neg.bids.length ≤ 32 → x.bids.length ≤ 32)
    (hf : s.addr ≤ 15 → (∀ o ∈ s.neg.origins, o.bidsFit = true) → ∀ o ∈ x.origins, o.bidsFit = true) :
    Kept a { s with neg := x } := by
  refine h.trans ⟨⟨rfl, rfl, rfl⟩, fun k => ?_, id, fun _ => id, id, id, fun k => k.congr rfl rfl rfl, id⟩
  rw [placesFit_iff] at *
  obtain ⟨⟨k1, k2, k3, k4, k5⟩, k6, k7, k8, k9⟩ := k
  exact ⟨⟨k1, k2, ho.elim id fun o => o.trans k3, hb k4, k5⟩, k6, k7, hf k9 k8, k9⟩

/-- A change of drives and mount records that keeps their number and their agreement. -/
theorem Kept.mnt {t : State} (h : Kept a s) (hl : t.mnt.mounts.length = s.mnt.mounts.length)
    (hm : s.mountsAgree → t.mountsAgree) (ht : t = { s with mnt := t.mnt } := by rfl) : Kept a t := by
  refine h.trans ?_
  rw [ht] at hm ⊢
  refine ⟨⟨rfl, rfl, rfl⟩, fun k => ?_, id, fun _ => id, fun k => ?_, hm, fun k => k.congr rfl rfl rfl, id⟩
  · rw [placesFit_iff] at *
    obtain ⟨⟨k1, k2, k3, k4, k5, k6⟩, k7⟩ := k
    exact ⟨⟨k1, k2, k3, k4, hl.le.trans k5, k6⟩, k7⟩
  · rw [spoolLaw_iff] at *
    exact (congrArg (s.acct.spool.length + ·) hl).le.trans k

/-- A change of the Handling Sequencer and the Lane Unit. -/
theorem Kept.seqLane {t : State} (h : Kept a s) (hq : t.seq.queue.length ≤ 12 ∨ t.seq.queue.length ≤ s.seq.queue.length)
    (hl : (∀ d, (s.side d).inbound.length ≤ 6 ∧ (s.side d).undelivered.length ≤ 6) →
      ∀ d, (t.side d).inbound.length ≤ 6 ∧ (t.side d).undelivered.length ≤ 6)
    (hc : a.CreditLaw → s.CreditLaw → t.CreditLaw) (ht : t = { s with seq := t.seq, lane := t.lane } := by rfl) : Kept a t := by
  rw [ht] at hl hc ⊢
  refine ⟨h.port, fun k => ?_, h.tables, h.volsers, h.spool, h.mounts, fun k => hc k (h.credit k), h.config⟩
  have k := h.places k
  rw [placesFit_iff] at *
  obtain ⟨⟨k1, k2, k3⟩, k4, k5⟩ := k
  exact ⟨⟨k1, hq.elim id fun q => q.trans k2, k3⟩, hl k4, k5⟩

/-- A change of the Handling Sequencer. -/
theorem Kept.seq {t : State} (h : Kept a s) (hq : t.seq.queue.length ≤ 12 ∨ t.seq.queue.length ≤ s.seq.queue.length)
    (hc : s.CreditLaw → t.CreditLaw) (ht : t = { s with seq := t.seq } := by rfl) : Kept a t :=
  h.seqLane hq (by rw [ht]; exact id) (fun _ => hc) (by rw [ht])

/-- A change of the Handling Sequencer that touches no order and not the arm. -/
theorem Kept.seqFrame (h : Kept a s) (x : Sequencer) (hq : x.queue = s.seq.queue) (hi : x.inArm = s.seq.inArm)
    (ha : x.arm = s.seq.arm) : Kept a { s with seq := x } := by
  refine h.seq (.inr (congrArg List.length hq).le) fun ⟨k, f⟩ => ⟨⟨?_, by simpa only [ha, hi] using k.idle, k.once, ?_⟩, f⟩
  all_goals
    have hm : State.marks { s with seq := x } = s.marks := by simp only [State.marks, State.orders, hq, hi]
    rw [hm]
  exacts [k.numbers, k.held]

/-- A change of the Lane Unit. -/
theorem Kept.lane {t : State} (h : Kept a s)
    (hl : (∀ d, (s.side d).inbound.length ≤ 6 ∧ (s.side d).undelivered.length ≤ 6) →
      ∀ d, (t.side d).inbound.length ≤ 6 ∧ (t.side d).undelivered.length ≤ 6)
    (hc : a.CreditLaw → s.CreditLaw → t.CreditLaw) (ht : t = { s with lane := t.lane } := by rfl) : Kept a t :=
  h.seqLane (.inr (by rw [ht])) hl hc (by rw [ht])

/-- A change of the Lane Unit that touches neither side. -/
theorem Kept.laneFrame (h : Kept a s) (x : LaneUnit) (hw : x.west = s.lane.west) (he : x.east = s.lane.east) :
    Kept a { s with lane := x } := by
  have hs (d : Side) : State.side { s with lane := x } d = s.side d := by cases d <;> simp [State.side, hw, he]
  refine h.lane (fun k d => (hs d).symm ▸ k d) fun _ ⟨k, f⟩ => ⟨⟨k.numbers, k.idle, fun d => ?_, fun d => ?_⟩, fun d => ?_⟩
  · exact (hs d).symm ▸ k.once d
  · exact (hs d).symm ▸ k.held d
  · exact (hs d).symm ▸ f d

/-- A change of the console that brings the FETCH and UNSERVED prompts and the remote prompts to no more than their places. -/
theorem Kept.prm {t : State} (h : Kept a s) (ho : t.openPrompts ≤ 20 ∨ t.openPrompts ≤ s.openPrompts)
    (hr : s.prm.remote.length ≤ 8 → t.prm.remote.length ≤ 8) (ht : t = { s with prm := t.prm } := by rfl) : Kept a t := by
  refine h.trans ?_
  rw [ht] at ho ⊢
  refine ⟨⟨rfl, rfl, rfl⟩, fun k => ?_, id, fun _ => id, id, id, fun k => k.congr rfl rfl rfl, id⟩
  rw [placesFit_iff] at *
  obtain ⟨⟨k1, k2, k3, k4, k5, k6, k7⟩, k8⟩ := k
  exact ⟨⟨k1, k2, k3, k4, k5, ho.elim id fun o => o.trans k6, hr k7⟩, k8⟩

/-- A change of the console that keeps its prompts and remote prompts. -/
theorem Kept.prmFrame (h : Kept a s) (x : PromptUnit) (hp : x.prompts = s.prm.prompts) (hr : x.remote = s.prm.remote) :
    Kept a { s with prm := x } :=
  h.prm (.inr (by simp only [State.openPrompts, hp, le_refl])) (by rw [hr]; exact id)

/-- A change of the Wear Monitor. -/
theorem Kept.wear (h : Kept a s) (x : WearMonitor) (hr : tableWf s.wear.records = true → tableWf x.records = true) :
    Kept a { s with wear := x } := by
  refine h.trans ⟨⟨rfl, rfl, rfl⟩, id, fun k => ?_, fun _ => id, id, id, fun k => k.congr rfl rfl rfl, id⟩
  rw [tablesOrdered_iff] at *
  obtain ⟨k1, k2, k3, k4, k5, k6⟩ := k
  exact ⟨k1, k2, k3, k4, k5, hr k6⟩

/-- A change of the Accounting Unit that spools no more and keeps every account's open mounts. -/
theorem Kept.acct {t : State} (h : Kept a s) (hw : tableWf s.acct.accounts = true → tableWf t.acct.accounts = true)
    (hl : t.acct.spool.length ≤ s.acct.spool.length) (ho : ∀ n, (t.account n).openMounts = (s.account n).openMounts)
    (ht : t = { s with acct := t.acct } := by rfl) : Kept a t := by
  refine h.trans ?_
  rw [ht] at ho ⊢
  refine ⟨⟨rfl, rfl, rfl⟩, id, fun k => ?_, fun _ => id, fun k => ?_, fun k => ⟨k.1, fun n => (ho n).trans (k.2 n)⟩,
    fun k => k.congr rfl rfl rfl, id⟩
  · rw [tablesOrdered_iff] at *
    obtain ⟨k1, k2, k3, k4, k5, k6⟩ := k
    exact ⟨k1, k2, k3, k4, hw k5, k6⟩
  · rw [spoolLaw_iff] at *
    exact (Nat.add_le_add_right hl _).trans k

end

end Sys2Proof.Machine


/-! The named operations over records, tables, notices, prompts and frames keep the invariants. -/

namespace Sys2Proof.Machine

-- One proof at a time: proofs that wait for each other on threads of their own would reserve more stack than the check allows.
set_option Elab.async false

section
variable {a s : State}

/-! ### Notices -/

theorem postNeg_kept {n : Notice} (h : Kept a s) : Kept a (postNeg n s) :=
  h.neg _ (.inr (le_refl _)) id fun _ => id

theorem postMount_kept {n : Notice} (h : Kept a s) : Kept a (postMount n s) := h.mnt rfl id

theorem postSeq_kept {n : Notice} (h : Kept a s) : Kept a (postSeq n s) := h.seqFrame _ rfl rfl rfl

theorem postLane_kept {n : Notice} (h : Kept a s) : Kept a (postLane n s) := h.laneFrame _ rfl rfl

theorem postWear_kept {n : Notice} (h : Kept a s) : Kept a (postWear n s) := h.wear _ id

theorem postAcct_kept {n : Notice} (h : Kept a s) : Kept a (postAcct n s) := h.acct id (le_refl _) fun _ => rfl

theorem postHost_kept {n : Notice} (h : Kept a s) : Kept a (postHost n s) := h.host _ ⟨rfl, rfl, rfl⟩ rfl rfl rfl id

/-! ### Origin records and bid records -/

/-- Every entry of a changed list is an entry of the old one or a changed entry. -/
theorem forall_mem_updWhere {α : Type} {p : α → Bool} {f : α → α} {l : List α} {P : α → Prop} (hl : ∀ x ∈ l, P x)
    (hf : ∀ x ∈ l, P x → P (f x)) : ∀ x ∈ updWhere p f l, P x := by
  intro x hx
  obtain ⟨y, hy, rfl⟩ := List.mem_map.mp hx
  split
  · exact hf y hy (hl y hy)
  · exact hl y hy

theorem updOrigin_kept {id : ReqId} {f : OriginRec → OriginRec} (h : Kept a s)
    (hf : s.addr ≤ 15 → ∀ o : OriginRec, o.bidsFit = true → (f o).bidsFit = true := by exact fun _ _ k => k) :
    Kept a (updOrigin id f s) :=
  h.neg _ (.inr (length_updWhere ..).le) (fun k => k) fun k hl => forall_mem_updWhere hl fun o _ => hf k o

theorem sweepOrigins_kept (h : Kept a s) : Kept a (sweepOrigins s) :=
  h.neg _ (.inr (List.length_filter_le ..)) (fun k => k) fun _ k o ho => k o (List.mem_of_mem_filter ho)

theorem dropBid_kept {id : ReqId} (h : Kept a s) : Kept a (dropBid id s) :=
  h.neg _ (.inr (le_refl _)) (fun k => (List.length_filter_le ..).trans k) fun _ k => k

/-! ### Settings -/

theorem tickless_host {x : HostPort} (h : Kept a s) (hx : x = { s.host with clock := x.clock, clockRuns := x.clockRuns }) :
    Kept a { s with host := x } := by
  rw [hx]
  exact h.host _ ⟨rfl, rfl, rfl⟩ rfl rfl rfl id

/-! ### Frames (sections 2.3 to 2.5) -/

/-- A change of the Line Unit that keeps its tables and puts no frame into its queue. -/
theorem lineFrame_kept (h : Kept a s) (x : LineUnit) (hq : x.queue.length ≤ s.line.queue.length)
    (hd : x.dedupe = s.line.dedupe) (hp : x.peers = s.line.peers) : Kept a { s with line := x } :=
  h.line x (.inr hq) (by rw [hd]; exact id) (by rw [hp]; exact id)

theorem sendLine_kept {b : List Byte} (h : Kept a s) : Kept a (sendLine b s) := lineFrame_kept h _ (le_refl _) rfl rfl

theorem sendAck_kept {x n : Nat} (h : Kept a s) : Kept a (sendAck x n s) := sendLine_kept h

/-! ### Prompts -/

/-- A change of entries that lets `q` pick no new one picks no more. -/
theorem length_filter_updWhere_le {α : Type} (p q : α → Bool) (f : α → α) (l : List α) (h : ∀ x, q (f x) = true → q x = true) :
    ((updWhere p f l).filter q).length ≤ (l.filter q).length := by
  rw [← List.countP_eq_length_filter, ← List.countP_eq_length_filter, updWhere, List.countP_map]
  refine List.countP_mono_left fun x _ hx => ?_
  simp only [Function.comp_apply] at hx
  split at hx
  exacts [h x hx, hx]

theorem updPrompt_kept {n : Nat} {f : Prompt → Prompt} (h : Kept a s)
    (hf : ∀ p : Prompt, (f p).kind.isOpenKind = true → p.kind.isOpenKind = true := by exact fun _ k => k) :
    Kept a (updPrompt n f s) :=
  h.prm (.inr (length_filter_updWhere_le _ (fun p : Prompt => p.kind.isOpenKind) f _ hf)) id

theorem setCell_kept {i : Nat} {c : CellPos} (h : Kept a s) : Kept a (setCell i c s) := h.prmFrame _ rfl rfl

theorem removePrompt_kept {n : Nat} (h : Kept a s) : Kept a (removePrompt n s) :=
  h.prm (.inr (List.Sublist.length_le (List.Sublist.filter _ List.filter_sublist))) id

theorem strikeWaiter_kept {w : Holder} (h : Kept a s) : Kept a (strikeWaiter w s) := h.prmFrame _ rfl rfl

/-- A prompt enters; a FETCH or UNSERVED one with a place for it. -/
theorem addPrompt_kept {p : Prompt} (h : Kept a s) (hp : p.kind.isOpenKind = false ∨ s.openPrompts < 20) :
    Kept a (addPrompt p s) := by
  have hcount : State.openPrompts (addPrompt p s) = s.openPrompts + if p.kind.isOpenKind then 1 else 0 := by
    simp only [State.openPrompts, addPrompt, List.filter_append, List.length_append]
    cases hk : p.kind.isOpenKind <;> simp [hk]
  refine h.prm ?_ id
  obtain hp | hp := hp
  · exact .inr (hcount.le.trans (by simp [hp]))
  · exact .inl (hcount.le.trans (by split <;> omega))

theorem postCellReel_kept {p : Prompt} {v : Volser} {i : Nat} (h : Kept a s) (hp : p.kind.isOpenKind = false) :
    Kept a (postCellReel p v i s) := setCell_kept (addPrompt_kept h (.inl hp))

/-! ### Orders -/

/-- A change that leaves the orders' numbers and to-locations and the claims of both lanes. -/
theorem State.ClaimsLaw.congr {t : State} (k : s.ClaimsLaw) (hm : t.marks = s.marks) (hi : t.seq.arm = .idle → t.seq.inArm = none)
    (hc : ∀ d, (t.side d).claims = (s.side d).claims) : t.ClaimsLaw :=
  ⟨hm ▸ k.numbers, hi, fun d => hc d ▸ k.once d, fun d => by rw [hc, hm]; exact k.held d⟩

/-- A change of one order that keeps its number and its to-location. -/
theorem marks_updOrder {n : Nat} {f : ArmOrder → ArmOrder} (hn : ∀ o, (f o).number = o.number) (hd : ∀ o, (f o).dst = o.dst) :
    (updOrder n f s).marks = s.marks := by
  have ho : (updOrder n f s).orders = s.orders.map fun o => if o.number = n then f o else o := by
    cases h : s.seq.inArm <;> simp [State.orders, updOrder, updWhere, h]
  rw [State.marks, ho, List.map_map]
  refine List.map_congr_left fun o _ => ?_
  simp only [Function.comp_apply]
  split <;> simp [hn, hd]

theorem updOrder_idle {n : Nat} {f : ArmOrder → ArmOrder} (k : s.seq.arm = .idle → s.seq.inArm = none) :
    (updOrder n f s).seq.arm = .idle → (updOrder n f s).seq.inArm = none :=
  fun e => by simp [updOrder, k e]

theorem updOrder_kept {n : Nat} {f : ArmOrder → ArmOrder} (h : Kept a s)
    (hn : ∀ o, (f o).number = o.number := by exact fun _ => rfl) (hd : ∀ o, (f o).dst = o.dst := by exact fun _ => rfl) :
    Kept a (updOrder n f s) :=
  h.seq (.inr (length_updWhere ..).le) fun k =>
    ⟨k.claims.congr (marks_updOrder hn hd) (updOrder_idle k.claims.idle) fun _ => rfl, k.fits⟩

theorem sendArm_kept {m : ArmMessage} (h : Kept a s) : Kept a (sendArm m s) := h.seqFrame _ rfl rfl rfl

/-! ### Side records -/

theorem subperm_nodup {α : Type} {l m : List α} (h : l.Subperm m) (k : m.Nodup) : l.Nodup :=
  have ⟨_, hp, hs⟩ := h
  hp.nodup_iff.mp (k.sublist hs)

@[simp] theorem marks_updSide (d : Side) (f : SideRec → SideRec) : (updSide d f s).marks = s.marks := by
  simp only [State.marks, State.orders, updSide_seq]

@[simp] theorem advertised_updSide (d e : Side) (f : SideRec → SideRec) : (updSide d f s).advertised e = s.advertised e := by
  simp only [State.advertised, State.settings, updSide_host]

/-- What holds of every side of the lane unit, but one, and of what that one becomes, holds of every side after the change. -/
theorem forall_updSide {P : Side → SideRec → Prop} {d : Side} {f : SideRec → SideRec} (hd : P d (f (s.side d)))
    (ho : ∀ e, P e (s.side e)) : ∀ e, P e ((updSide d f s).side e) := fun e => by
  by_cases he : e = d
  · subst he; rwa [updSide_side]
  · rw [updSide_other he]; exact ho e

/-- A change of one side whose claims are those of orders bound for its mouth. -/
theorem State.ClaimsLaw.updSide {d : Side} {f : SideRec → SideRec} (k : s.ClaimsLaw) (ho : (f (s.side d)).claims.Nodup)
    (hh : ∀ n ∈ (f (s.side d)).claims, (n, Loc.mouth d) ∈ s.marks) : (Machine.updSide d f s).ClaimsLaw :=
  ⟨by simpa using k.numbers, by simpa using k.idle, forall_updSide (P := fun _ r => r.claims.Nodup) ho k.once, by
    rw [marks_updSide]
    exact forall_updSide (P := fun e r => ∀ n ∈ r.claims, (n, Loc.mouth e) ∈ s.marks) hh k.held⟩

/-- The credit of one side changed within its bounds. -/
theorem creditFits_updSide {d : Side} {f : SideRec → SideRec}
    (k : ∀ e, (s.side e).CreditFits (s.advertised e) (s.host.state = .config))
    (hf : (f (s.side d)).CreditFits (s.advertised d) (s.host.state = .config)) :
    ∀ e, ((updSide d f s).side e).CreditFits ((updSide d f s).advertised e) ((updSide d f s).host.state = .config) := by
  simp only [advertised_updSide, updSide_host]
  exact forall_updSide (P := fun e r => r.CreditFits (s.advertised e) (s.host.state = .config)) hf k

/-- A change of one side, from what it does to the side's lists and to the credit law. -/
theorem updSide_keptOf {d : Side} {f : SideRec → SideRec} (h : Kept a s)
    (hl : (s.side d).inbound.length ≤ 6 ∧ (s.side d).undelivered.length ≤ 6 →
      (f (s.side d)).inbound.length ≤ 6 ∧ (f (s.side d)).undelivered.length ≤ 6)
    (hc : a.CreditLaw → s.CreditLaw → (updSide d f s).CreditLaw) : Kept a (updSide d f s) :=
  h.lane (fun k => forall_updSide (P := fun _ r => r.inbound.length ≤ 6 ∧ r.undelivered.length ≤ 6) (hl (k d)) k) hc
    (by cases d <;> rfl)

/-- A change of one side that keeps its credit, adds no claim, and makes its lists no longer than their places. -/
theorem updSide_kept {d : Side} {f : SideRec → SideRec} (h : Kept a s)
    (hl : (s.side d).inbound.length ≤ 6 ∧ (s.side d).undelivered.length ≤ 6 →
      (f (s.side d)).inbound.length ≤ 6 ∧ (f (s.side d)).undelivered.length ≤ 6 := by exact id)
    (hc : s.CreditLaw → (f (s.side d)).CreditFits (s.advertised d) (s.host.state = .config) := by exact fun k => k.fits _)
    (hp : s.CreditLaw → (f (s.side d)).claims.Subperm (s.side d).claims := by exact fun _ => List.Subperm.refl _) :
    Kept a (updSide d f s) :=
  updSide_keptOf h hl fun _ k => ⟨k.claims.updSide (subperm_nodup (hp k) (k.claims.once d))
    fun n hn => k.claims.held d n ((hp k).subset hn), creditFits_updSide k.fits (hc k)⟩

/-! ### Mount records and drives (R90, R95) -/

theorem sendLoad_kept {m : LoadMessage} (h : Kept a s) : Kept a (sendLoad m s) := h.mnt rfl id

theorem mount_updMount (id x : ReqId) (f : MountRec → MountRec) (hf : ∀ m, (f m).id = m.id) (s : State) :
    (updMount id f s).mount x = (s.mount x).map fun m => if m.id = id then f m else m := by
  simp only [State.mount, updMount, updWhere, List.find?_map]
  congr 1
  · funext m; split <;> simp_all
  · congr 1
    funext m
    simp only [Function.comp_apply]
    split <;> simp_all

/-- A change of mount records that keeps which record holds which drive for which account. -/
theorem updMounts_agree {g : MountRec → MountRec} (x : MountUnit) (hd : x.drives = s.mnt.drives)
    (hm : x.mounts = s.mnt.mounts.map g)
    (hg : ∀ m, (g m).id = m.id ∧ (g m).drive = m.drive ∧ (g m).driveHeld = m.driveHeld ∧ (g m).account = m.account)
    (k : s.mountsAgree) : State.mountsAgree { s with mnt := x } := by
  obtain ⟨⟨k1, k2, k3⟩, k4⟩ := k
  have hfind (id : ReqId) : State.mount { s with mnt := x } id = (s.mount id).map g := by
    simp only [State.mount, hm, List.find?_map]
    congr 2
    funext m
    simp [(hg m).1]
  have hdrive (d : Nat) : State.drive { s with mnt := x } d = s.drive d := by simp only [State.drive, hd]
  refine ⟨⟨?_, fun d r id hr hid => ?_, fun m hm' hh => ?_⟩, fun n => ?_⟩
  · simpa only [hm, List.map_map, Function.comp_def, fun m => (hg m).1] using k1
  · obtain ⟨hf, m, hm1, hm2, hm3⟩ := k2 d r id (hdrive d ▸ hr) hid
    exact ⟨hf, g m, by rw [hfind, hm1]; rfl, (hg m).2.1.trans hm2, (hg m).2.2.1.trans hm3⟩
  · rw [hm] at hm'
    obtain ⟨m, hm0, rfl⟩ := List.mem_map.mp hm'
    obtain ⟨h1, h2, h3, -⟩ := hg m
    rw [h1, h2, hdrive]
    exact k3 m hm0 (h3 ▸ hh)
  · have hc : (x.mounts.filter fun m => m.account = n).length = (s.mnt.mounts.filter fun m => m.account = n).length := by
      rw [hm, List.filter_map, List.length_map]
      congr 2
      funext m
      simp [(hg m).2.2.2]
    exact (k4 n).trans hc.symm

/-- A change of one mount record that keeps its drive, whether it holds it, and its account. -/
theorem updMount_kept {id : ReqId} {f : MountRec → MountRec} (h : Kept a s)
    (hf : ∀ m, (f m).id = m.id ∧ (f m).drive = m.drive ∧ (f m).driveHeld = m.driveHeld ∧ (f m).account = m.account
      := by exact fun _ => ⟨rfl, rfl, rfl, rfl⟩) : Kept a (updMount id f s) :=
  h.mnt (length_updWhere ..) fun k => updMounts_agree (g := fun m => if m.id = id then f m else m) _ rfl (by simp [updWhere])
    (fun m => by split; exacts [hf m, ⟨rfl, rfl, rfl, rfl⟩]) k

theorem drive_updDrive (d e : Nat) (f : DriveRec → DriveRec) (s : State) :
    (updDrive d f s).drive e = if d = e then (s.drive e).map f else s.drive e := by
  simp only [State.drive, updDrive, List.getElem?_modify]
  split <;> simp_all

/-- A change of one drive that keeps its mount id, and does not free it while it has one. -/
theorem updDrive_kept {d : Nat} {f : DriveRec → DriveRec} (h : Kept a s)
    (hf : ∀ r, (f r).mountId = r.mountId := by exact fun _ => rfl)
    (hs : ∀ r, s.drive d = some r → r.mountId ≠ none → r.state ≠ .free → (f r).state ≠ .free := by exact fun _ _ _ k => k) :
    Kept a (updDrive d f s) := by
  refine h.mnt rfl fun ⟨⟨k1, k2, k3⟩, k4⟩ => ⟨⟨k1, fun e r id hr hid => ?_, fun m hm hh => ?_⟩, k4⟩
  · rw [drive_updDrive] at hr
    split at hr
    · next he =>
      subst he
      obtain ⟨r0, h0, rfl⟩ := Option.map_eq_some_iff.mp hr
      rw [hf] at hid
      obtain ⟨hfree, hm⟩ := k2 d r0 id h0 hid
      exact ⟨hs r0 h0 (by simp [hid]) hfree, hm⟩
    · exact k2 e r id hr hid
  · obtain ⟨r, hr, hid⟩ := k3 m hm hh
    rw [drive_updDrive]
    split
    · exact ⟨f r, by rw [hr]; rfl, (hf r).trans hid⟩
    · exact ⟨r, hr, hid⟩

/-! ### Wear records and accounts -/

theorem setWear_kept {n : Nat} {w : WearRec} (h : Kept a s) : Kept a (setWear n w s) := h.wear _ fun k => tableWf_set k ..

theorem account_updAccount (n m : Nat) (f : Account → Account) (s : State) :
    (updAccount n f s).account m = if m = n then f (s.account n) else s.account m := by
  unfold updAccount State.account
  split
  · next e => subst e; exact tableGet_set_same ..
  · next e => simp only [tableGet_set_other _ _ _ e]

theorem updAccount_kept {n : Nat} {f : Account → Account} (h : Kept a s) (hf : ∀ x, (f x).openMounts = x.openMounts) :
    Kept a (updAccount n f s) :=
  h.acct (fun k => tableWf_set k ..) (le_refl _) fun m => by
    rw [account_updAccount]
    split
    · next e => rw [hf, e]
    · rfl

/-- The spool state is no part of the invariants. -/
theorem evalSpool_kept (h : Kept a s) : Kept a (evalSpool s) := by
  have hst : Kept a { s with acct := { s.acct with
      spoolState := spoolNext s.acct.spoolState s.held s.live s.settings.high s.settings.low } } :=
    h.acct id (le_refl _) fun _ => rfl
  unfold evalSpool
  dsimp only
  split
  · exact h
  · split
    · exact hst
    · exact postAcct_kept hst

end

end Sys2Proof.Machine


/-! Frames, the cell and its prompts, the directory: their operations keep the invariants. -/

namespace Sys2Proof.Machine

-- One proof at a time: proofs that wait for each other on threads of their own would reserve more stack than the check allows.
set_option Elab.async false

section
variable {a s : State}

/-! ### The transmit queue -/

theorem frameEntered_kept {f : TxFrame} (h : Kept a s) : Kept a (frameEntered f s) := by
  unfold frameEntered
  split
  case h_1 | h_2 | h_3 => exact updOrigin_kept h fun _ o k => by split <;> exact k
  case h_4 => exact updMount_kept h fun m => by split <;> exact ⟨rfl, rfl, rfl, rfl⟩
  case h_5 => exact updPrompt_kept h fun p k => by split at k <;> exact k
  case h_6 r _ =>
    split
    · have hlen (x : Routing) (l : List Routing) : (dropFirst x l).length ≤ l.length := by
        induction l with
        | nil => simp [dropFirst]
        | cons y l ih => simp only [dropFirst]; split <;> simp [ih]
      exact updSide_kept h fun k => ⟨k.1, (hlen r _).trans k.2⟩
    · exact h
  case h_7 => exact h

@[simp] theorem frameEntered_line (f : TxFrame) (s : State) : (frameEntered f s).line = s.line := by
  unfold frameEntered
  split <;> try rfl
  split <;> simp

/-- A frame enters the queue where a place is free. -/
theorem enterQueue_kept {f : TxFrame} (h : Kept a s) (hr : s.line.queue.length < 16) : Kept a (enterQueue f s) := by
  have hlen (x : TxFrame) : ((frameEntered f s).line.queue ++ [x]).length ≤ 16 := by simpa using hr
  unfold enterQueue
  split
  · exact (frameEntered_kept h).line _ (.inl (hlen _)) id id
  · exact (frameEntered_kept h).line _ (.inl (hlen _)) id id

theorem txRoom_lt (h : s.txRoom = true) : s.line.queue.length < 16 := by
  simp only [State.txRoom, Bool.and_eq_true, decide_eq_true_eq] at h
  exact h.1

theorem offerTx_kept {f : TxFrame} (h : Kept a s) : Kept a (offerTx f s) := by
  have hwait : Kept a { s with line := { s.line with waiting := s.line.waiting ++ [f] } } := lineFrame_kept h _ (le_refl _) rfl rfl
  unfold offerTx
  split
  · exact frameEntered_kept h
  · split
    · split
      · exact lineFrame_kept h _ (length_updWhere ..).le rfl rfl
      · split
        · next hr => exact enterQueue_kept h (txRoom_lt hr)
        · exact hwait
    · split
      · next hr => exact enterQueue_kept h (txRoom_lt hr)
      · exact hwait

theorem offerTo_kept {n : Nat} {b : Body} (h : Kept a s) : Kept a (offerTo n b s) := offerTx_kept h

theorem offerAll_kept {b : Body} (h : Kept a s) : Kept a (offerAll b s) := offerTx_kept h

theorem offerResend_kept {n : Nat} {r : Routing} (h : Kept a s) : Kept a (offerResend n r s) := offerTx_kept h

theorem takeWaitingFrame_kept (h : Kept a s) : Kept a (takeWaitingFrame s) := by
  unfold takeWaitingFrame
  split
  · exact h
  · split
    · next hr => exact enterQueue_kept (lineFrame_kept h _ (le_refl _) rfl rfl) hr
    · exact h

theorem offerHello_kept (h : Kept a s) : Kept a (offerHello s) := by
  unfold offerHello
  split
  · exact h
  · exact offerAll_kept h

theorem leaveQueue_kept (h : Kept a s) : Kept a (leaveQueue s) := lineFrame_kept h _ (by simp) rfl rfl

theorem beginFrame_kept {f : TxFrame} (h : Kept a s) (hq : s.line.queue ≠ []) : Kept a (beginFrame f s) := by
  have hlen (x : TxFrame) : (x :: s.line.queue.tail).length ≤ s.line.queue.length := by
    have := List.length_pos_iff.mpr hq
    simp only [List.length_cons, List.length_tail]
    omega
  unfold beginFrame
  dsimp only
  split
  · exact lineFrame_kept h _ (hlen _) rfl rfl
  · exact lineFrame_kept h _ (hlen _) rfl rfl

theorem attemptStart_kept (h : Kept a s) : Kept a (attemptStart s) := by
  unfold attemptStart
  split
  · exact h
  · next f _ hq =>
    split
    · have hf : Kept a (if f.begun then s else beginFrame f s) := by
        split
        exacts [h, beginFrame_kept h (by simp [hq])]
      exact lineFrame_kept hf _ (le_refl _) rfl rfl
    · exact h

theorem attemptDone_kept (h : Kept a s) : Kept a (attemptDone s) := by
  unfold attemptDone
  split
  · exact h
  · split
    · dsimp only
      split
      · exact leaveQueue_kept (sendLine_kept h)
      · exact lineFrame_kept (sendLine_kept h) _ (le_refl _) rfl rfl
    · exact h

theorem takeAck_kept {x n : Nat} (h : Kept a s) : Kept a (takeAck x n s) := by
  unfold takeAck
  split
  · exact h
  · split
    exacts [leaveQueue_kept h, h]

/-! ### The cell and its prompts -/

theorem grantCell_kept {i : Nat} {w : Holder} (h : Kept a s) : Kept a (grantCell i w s) := by
  cases w
  · exact updPrompt_kept (setCell_kept h)
  · exact updOrder_kept (setCell_kept h)

theorem waitCell_kept {w : Holder} (h : Kept a s) : Kept a (waitCell w s) := by
  cases w
  · exact updPrompt_kept (h.prmFrame _ rfl rfl)
  · exact updOrder_kept (h.prmFrame _ rfl rfl)

theorem askCell_kept {w : Holder} (h : Kept a s) : Kept a (askCell w s) := by
  unfold askCell
  split
  · split
    exacts [grantCell_kept h, waitCell_kept h]
  · exact waitCell_kept h

theorem freeCell_kept {i : Nat} (h : Kept a s) : Kept a (freeCell i s) := by
  unfold freeCell
  split
  · exact setCell_kept h
  · exact grantCell_kept (h.prmFrame _ rfl rfl)

theorem enterPosting_kept {p : Prompt} (h : Kept a s) (hr : s.openPrompts < 20) : Kept a (enterPosting p s) := by
  have hp := addPrompt_kept (p := p) h (.inr hr)
  unfold enterPosting
  dsimp only
  split
  · exact askCell_kept hp
  · split
    · exact sweepOrigins_kept (updOrigin_kept hp)
    · exact hp

theorem postOpen_kept {p : Prompt} (h : Kept a s) : Kept a (postOpen p s) := by
  unfold postOpen
  split
  · next hr =>
    simp only [State.postingRoom, Bool.and_eq_true, decide_eq_true_eq] at hr
    exact enterPosting_kept h hr.1
  · exact h.prmFrame _ rfl rfl

theorem takePosting_kept (h : Kept a s) : Kept a (takePosting s) := by
  unfold takePosting
  split
  · exact h
  · split
    · next hr => exact enterPosting_kept (h.prmFrame _ rfl rfl) hr
    · exact h

theorem clearEscalated_kept {n : Nat} (h : Kept a s) : Kept a (clearEscalated n s) := by
  have hu : Kept a (updPrompt n (fun p => { p with notice := .none }) s) := updPrompt_kept h
  unfold clearEscalated
  split
  · split
    · dsimp only
      split
      · exact offerAll_kept hu
      · exact lineFrame_kept hu _ (le_refl _) rfl rfl
      · exact hu
    · exact h
  · exact h

theorem endPrompt_kept {n : Nat} (h : Kept a s) : Kept a (endPrompt n s) := by
  unfold endPrompt
  split
  · dsimp only
    split
    · exact freeCell_kept (removePrompt_kept (clearEscalated_kept h))
    · exact strikeWaiter_kept (removePrompt_kept (clearEscalated_kept h))
  · exact h

theorem handOver_kept {n m : Nat} (h : Kept a s) : Kept a (handOver n m s) := by
  unfold handOver
  split
  · dsimp only
    split
    · exact setCell_kept (removePrompt_kept (clearEscalated_kept h))
    · exact removePrompt_kept (clearEscalated_kept h)
  · exact h

theorem withdrawFetch_kept {id : ReqId} (h : Kept a s) : Kept a (withdrawFetch id s) := by
  have hp : Kept a { s with prm := { s.prm with
      postings := s.prm.postings.filter fun p => !(p.kind = PromptKind.fetch && p.mountId = some id) } } := h.prmFrame _ rfl rfl
  unfold withdrawFetch
  dsimp only
  split
  · split
    exacts [endPrompt_kept hp, hp]
  · exact hp

theorem withdrawRing_kept {id : ReqId} (h : Kept a s) : Kept a (withdrawRing id s) := by
  unfold withdrawRing
  split
  · split
    exacts [endPrompt_kept h, h]
  · exact h

theorem becomeRemove_kept {n : Nat} (h : Kept a s) : Kept a (becomeRemove n s) :=
  updPrompt_kept (clearEscalated_kept h) fun _ k => nomatch k

/-! ### The directory (chapter 1) -/

/-- A key that holds an entry stands in the table with it. -/
theorem mem_of_tableGet {α : Type} {t : Table α} {i : Nat} {x : α} (h : tableGet t i = some x) : (i, x) ∈ t := by
  induction t with
  | nil => cases h
  | cons e t ih =>
    obtain ⟨k, v⟩ := e
    simp only [tableGet] at h
    split at h
    · next e => cases h; subst e; simp
    · exact List.mem_cons_of_mem _ (ih h)

/-- In a table of rising keys an entry is read back at its key. -/
theorem tableGet_of_mem {α : Type} {t : Table α} (hw : tableWf t = true) {i : Nat} {x : α} (h : (i, x) ∈ t) :
    tableGet t i = some x := by
  rw [tableWf_iff] at hw
  induction t with
  | nil => cases h
  | cons e t ih =>
    obtain ⟨k, v⟩ := e
    simp only [List.map_cons, List.pairwise_cons] at hw
    simp only [tableGet]
    obtain h | h := List.mem_cons.mp h
    · cases h; simp
    · rw [if_neg (Nat.ne_of_gt (hw.1 i (List.mem_map_of_mem (f := Prod.fst) h)))]
      exact ih hw.2 h

/-- A write over an entry with the same reading changes no reading. -/
theorem map_tablePut {α β : Type} {t : Table α} (hw : tableWf t = true) {i : Nat} {x y : α} (hy : tableGet t i = some y) (f : α → β)
    (hf : f x = f y) : (tablePut t i x).map (fun e => f e.2) = t.map fun e => f e.2 := by
  rw [tableWf_iff] at hw
  induction t with
  | nil => cases hy
  | cons e t ih =>
    obtain ⟨k, v⟩ := e
    simp only [List.map_cons, List.pairwise_cons] at hw
    simp only [tableGet] at hy
    unfold tablePut
    by_cases hk : i = k
    · rw [if_pos hk] at hy
      cases hy
      simp [hk, hf]
    · rw [if_neg hk] at hy
      have hlt : k < i := hw.1 i (List.mem_map_of_mem (f := Prod.fst) (mem_of_tableGet hy))
      rw [if_neg (Nat.not_lt.mpr hlt.le), if_neg hk, List.map_cons, List.map_cons, ih hw.2 hy]

/-- Every key of a written table is the key written or an old one. -/
theorem tablePut_keys {α : Type} {t : Table α} {i : Nat} {x : α} {P : Nat → Prop} (hi : P i) (ht : ∀ e ∈ t, P e.1) :
    ∀ e ∈ tablePut t i x, P e.1 := by
  intro e he
  obtain h | h := mem_keys_put t i x e.1 (List.mem_map_of_mem he)
  · exact h ▸ hi
  · obtain ⟨e', he', h'⟩ := List.mem_map.mp h
    exact h' ▸ ht e' he'

/-- An entry is replaced by one with its volser: every volser stands where it stood. -/
theorem setEntry_kept {n : Nat} {e x : HomeEntry} (h : Kept a s) (he : s.entry n = some e) (hv : x.volser = e.volser) :
    Kept a (setEntry n x s) := by
  refine h.dir _ (fun k => tableWf_put k ..) id (fun k _ hn => ?_) id
  have hm := map_tablePut k he (·.volser) hv
  simpa only [Directory.volsersOnce, hm] using hn

/-- Entries that leave the directory leave it in order. -/
theorem Kept.dirSublist (h : Kept a s) (x : Directory) (hc : x.catalog.Sublist s.dir.catalog) (hl : x.learnt.Sublist s.dir.learnt) :
    Kept a { s with dir := x } := by
  have hwf {α : Type} {t u : Table α} (hs : t.Sublist u) (k : tableWf u = true) : tableWf t = true := by
    rw [tableWf_iff] at *
    exact k.sublist (hs.map _)
  exact h.dir x (hwf hc) (hwf hl) (fun _ _ k => k.sublist ((hc.map _).append (hl.map _))) fun k e he => k e (hl.subset he)

theorem dropEntry_kept {n : Nat} (h : Kept a s) : Kept a (dropEntry n s) := h.dirSublist _ List.filter_sublist (.refl _)

theorem forgetWhere_kept {p : LearntEntry → Bool} (h : Kept a s) : Kept a (forgetWhere p s) :=
  h.dirSublist _ (.refl _) List.filter_sublist

theorem forgetVolser_kept {v : Volser} (h : Kept a s) : Kept a (forgetVolser v s) := forgetWhere_kept h

theorem forgetHolder_kept {n : Nat} (h : Kept a s) : Kept a (forgetHolder n s) := forgetWhere_kept h

/-- A take-out is granted for the entry of the slot, HOME and with the volser asked for (R6). -/
theorem takeOutAnswer_granted {n : Nat} {v : Volser} {id : ReqId} {e : HomeEntry} (h : s.takeOutAnswer n v id = .granted e) :
    s.entry n = some e ∧ e.volser = v ∧ e.state = .home := by
  unfold State.takeOutAnswer at h
  split at h
  · cases h
  · next x hx =>
    split at h
    · cases h
    · next hv =>
      split at h
      · next hs => cases h; exact ⟨hx, by simpa using hv, hs⟩
      · split at h <;> cases h

theorem takeOut_kept {n : Nat} {v : Volser} {id : ReqId} (h : Kept a s) : Kept a (takeOut n v id s) := by
  unfold takeOut
  split
  · next he => exact setEntry_kept h (takeOutAnswer_granted he).1 rfl
  · exact h

theorem returnCompletion_kept {n : Nat} {v : Volser} {r : Bool} {c : Option Counts} (h : Kept a s) :
    Kept a (returnCompletion n v r c s) := by
  unfold returnCompletion
  split
  · next he =>
    split
    · refine Kept.wear (setEntry_kept h he ?_) _ id
      rfl
    · exact h
  · exact h

theorem markMissing_kept {n : Nat} {v : Volser} (h : Kept a s) : Kept a (markMissing n v s) := by
  unfold markMissing
  split
  · next he =>
    split
    · exact setEntry_kept h he rfl
    · exact h
  · exact h

theorem markHeldMissing_kept {v : Volser} (h : Kept a s) : Kept a (markHeldMissing v s) := by
  unfold markHeldMissing
  split
  exacts [markMissing_kept h, h]

theorem retireFinish_kept {n : Nat} {v : Volser} (h : Kept a s) : Kept a (retireFinish n v s) := by
  unfold retireFinish
  split
  · next he =>
    split
    · exact setEntry_kept h he rfl
    · exact h
  · exact h

theorem auditReport_kept {n : Nat} {o : AuditOutcome} (h : Kept a s) : Kept a (auditReport n o s) := by
  unfold auditReport
  split
  · next he => exact setEntry_kept h he rfl
  · exact h

/-- A retirement starts with a HOME entry of its slot (R10). -/
theorem retireGranted_entry {n : Nat} {e : HomeEntry} (h : s.retireGranted n = some e) : s.entry n = some e ∧ e.state = .home := by
  unfold State.retireGranted at h
  split at h
  · next he =>
    split at h
    · next hs => cases h; exact ⟨he, hs⟩
    · cases h
  · cases h

/-! ### Learning (R15, R16) -/

/-- The free position found is one of those searched, and free. -/
theorem freePosition_some {α : Type} {t : Table α} {k i j : Nat} (h : freePosition t k i = some j) :
    i ≤ j ∧ j < i + k ∧ tableGet t j = none := by
  induction k generalizing i with
  | zero => cases h
  | succ k ih =>
    simp only [freePosition] at h
    split at h
    · next hn => cases h; exact ⟨le_refl _, by omega, by simpa using hn⟩
    · obtain ⟨h1, h2, h3⟩ := ih h
      exact ⟨by omega, by omega, h3⟩

theorem leastLifetime_mem {t : Table LearntEntry} {e : Nat × LearntEntry} (h : leastLifetime t = some e) : e ∈ t := by
  induction t generalizing e with
  | nil => cases h
  | cons x t ih =>
    simp only [leastLifetime] at h
    split at h
    · cases h; simp
    · next f hf =>
      split at h
      · cases h; exact List.mem_cons_of_mem _ (ih hf)
      · cases h; simp

/-- A learnt entry goes to a position of the table (R16). -/
theorem learnPosition_lt (k : ∀ e ∈ s.dir.learnt, e.1 < 256) : s.learnPosition < 256 := by
  unfold State.learnPosition
  split
  · next i hi => exact (freePosition_some hi).2.1.trans_eq (by decide)
  · cases hl : leastLifetime s.dir.learnt with
    | none => simp
    | some e => exact k e (leastLifetime_mem hl)

/-- The entries of a written table are the one written and old ones. -/
theorem mem_tablePut {α : Type} {t : Table α} {i : Nat} {x : α} {e : Nat × α} (h : e ∈ tablePut t i x) : e = (i, x) ∨ e ∈ t := by
  induction t with
  | nil => simpa [tablePut] using h
  | cons y t ih =>
    obtain ⟨k, v⟩ := y
    unfold tablePut at h
    split at h
    · simpa using h
    · split at h
      · obtain h | h := List.mem_cons.mp h
        exacts [.inl h, .inr (List.mem_cons_of_mem _ h)]
      · obtain h | h := List.mem_cons.mp h
        · exact .inr (by simp [h])
        · exact (ih h).imp_right (List.mem_cons_of_mem _)

/-- A reading that no other entry has stays unique in a written table. -/
theorem nodup_map_tablePut {α β : Type} {t : Table α} {i : Nat} {x : α} (f : α → β) (h : (t.map fun e => f e.2).Nodup)
    (hx : ∀ e ∈ t, e.1 ≠ i → f e.2 ≠ f x) (hw : tableWf t = true) : ((tablePut t i x).map fun e => f e.2).Nodup := by
  rw [tableWf_iff] at hw
  induction t with
  | nil => simp [tablePut]
  | cons y t ih =>
    obtain ⟨k, v⟩ := y
    simp only [List.map_cons, List.nodup_cons, List.pairwise_cons] at h hw
    have hrest (hlt : ∀ e ∈ t, e.1 ≠ i) : f x ∉ t.map fun e => f e.2 := by
      intro hm
      obtain ⟨e, he, heq⟩ := List.mem_map.mp hm
      exact hx e (List.mem_cons_of_mem _ he) (hlt e he) heq
    have hkey (e) (he : e ∈ t) : k < e.1 := hw.1 e.1 (List.mem_map_of_mem he)
    unfold tablePut
    split
    · next hlt =>
      simp only [List.map_cons, List.nodup_cons, List.mem_cons, not_or]
      exact ⟨⟨(hx (k, v) (by simp) (Nat.ne_of_gt hlt)).symm, hrest fun e he => by have := hkey e he; omega⟩, h⟩
    · split
      · next he =>
        simp only [List.map_cons, List.nodup_cons]
        exact ⟨hrest fun e hm => by have := hkey e hm; omega, h.2⟩
      · next h1 h2 =>
        simp only [List.map_cons, List.nodup_cons]
        refine ⟨fun hm => ?_, ih h.2 (fun e he => hx e (List.mem_cons_of_mem _ he)) hw.2⟩
        obtain ⟨e, he, heq⟩ := List.mem_map.mp hm
        obtain rfl | he := mem_tablePut he
        · exact hx (k, v) (by simp) (fun e => h2 e.symm) heq.symm
        · exact h.1 (heq ▸ List.mem_map_of_mem (f := fun e : Nat × α => f e.2) he)

theorem learn_kept {src n p : Nat} {v : Volser} {r : Bool} {c : ReelState} (h : Kept a s) : Kept a (learn src v n p r c s) := by
  unfold learn
  split
  · exact h
  · next hout =>
    simp only [Bool.or_eq_true, not_or, State.homeOf, Option.not_isSome_iff_eq_none, decide_eq_true_eq,
      List.find?_eq_none] at hout
    refine h.dir _ id (fun k => tableWf_put k ..) (fun _ k hn => ?_) fun k => ?_
    · rw [Directory.volsersOnce, List.nodup_append] at *
      obtain ⟨h1, h2, h3⟩ := hn
      refine ⟨h1, nodup_map_tablePut (·.volser) h2 (fun e he hne hv => ?_) k, fun x hx y hy e => ?_⟩
      · split at hne
        · next i f hf =>
          have hi := List.mem_of_find?_eq_some hf
          have hfv : f.volser = v := by simpa using List.find?_some hf
          exact hne (congrArg Prod.fst (List.inj_on_of_nodup_map h2 he hi (hv.trans hfv.symm)))
        · next hf =>
          exact absurd hv (by simpa using List.find?_eq_none.mp hf e he)
      · obtain ⟨f, hf, rfl⟩ := List.mem_map.mp hy
        obtain ⟨g, hg, rfl⟩ := List.mem_map.mp hx
        obtain rfl | hf := mem_tablePut hf
        · exact absurd e (hout.1 g hg)
        · exact h3 _ hx _ (List.mem_map_of_mem hf) e
    · refine tablePut_keys (P := (· < 256)) ?_ k
      split
      · next i f hf => exact k _ (List.mem_of_find?_eq_some hf)
      · exact learnPosition_lt k

end

end Sys2Proof.Machine


/-! The credit of the lanes and the orders of the sequencer: their operations keep the invariants, the credit law above all (R139). -/

namespace Sys2Proof.Machine

-- One proof at a time: proofs that wait for each other on threads of their own would reserve more stack than the check allows.
set_option Elab.async false

section
variable {a s : State}

/-! ### Credit granted, given back and spent -/

/-- A credit granted to the request at the head of the line: no claim is new. -/
theorem grantHead_kept {d : Side} {n : Nat} {rest : List Nat} (h : Kept a s) (hg : (s.side d).canGrant = true)
    (hr : (s.side d).requests = n :: rest) : Kept a (grantCredit d n (updSide d (fun r => { r with requests := rest }) s)) := by
  simp only [SideRec.canGrant, Bool.and_eq_true, decide_eq_true_eq] at hg
  have hu : updSide d (fun r => { r with available := r.available - 1, holders := r.holders ++ [n] })
      (updSide d (fun r => { r with requests := rest }) s)
      = updSide d (fun r => { r with requests := rest, available := r.available - 1, holders := r.holders ++ [n] }) s := by
    cases d <;> rfl
  rw [grantCredit, hu]
  refine updOrder_kept (updSide_kept h id (fun k => ?_) fun _ => ?_)
  · obtain ⟨f1, f2, f3, f4, f5⟩ := k.fits d
    refine ⟨?_, f2, ?_, f4, f5⟩
    · simp only [List.length_append, List.length_singleton]; omega
    · simp [hg.1]
  · simp only [SideRec.claims, hr, List.append_assoc, List.singleton_append]
    exact List.Subperm.refl _

@[simp] theorem updOrder_side (n : Nat) (f : ArmOrder → ArmOrder) (s : State) (d : Side) : (updOrder n f s).side d = s.side d := by
  cases d <;> rfl

theorem grantCredit_side (d : Side) (n : Nat) (s : State) :
    (grantCredit d n s).side d = { s.side d with available := (s.side d).available - 1, holders := (s.side d).holders ++ [n] } := by
  rw [grantCredit, updOrder_side, updSide_side]

theorem marks_holdCredit (n : Nat) (b : Bool) (s : State) : (updOrder n (fun o => { o with heldCredit := b }) s).marks = s.marks :=
  marks_updOrder (fun _ => rfl) fun _ => rfl

/-- What a walk through the requests does, step by step: each grant is one to the head of the line. -/
theorem grantFrom_induct {d : Side} {P : State → Prop} (step : ∀ (t : State) (n : Nat) (rest : List Nat), P t → (t.side d).canGrant = true →
    (t.side d).requests = n :: rest → P (grantCredit d n (updSide d (fun r => { r with requests := rest }) t)))
    {l : List Nat} {s : State} (hl : (s.side d).requests = l) (h : P s) : P (grantFrom d l s) := by
  induction l generalizing s with
  | nil => exact h
  | cons n rest ih =>
    unfold grantFrom
    split
    · next hg => exact ih (by rw [grantCredit_side, updSide_side]) (step s n rest h hg hl)
    · exact h

theorem grantCredits_kept {d : Side} (h : Kept a s) : Kept a (grantCredits d s) :=
  grantFrom_induct (P := Kept a) (fun _ _ _ => grantHead_kept) rfl h

theorem dropFirst_eq_erase {α : Type} [DecidableEq α] (x : α) (l : List α) : dropFirst x l = l.erase x := by
  induction l with
  | nil => rfl
  | cons y l ih => simp only [dropFirst, List.erase_cons, ih, beq_iff_eq]

/-- The side of a credit given back, before the requests are granted. -/
def SideRec.givenBack (r : SideRec) (n : Nat) : SideRec :=
  if n ∈ r.holders then
    { r with holders := dropFirst n r.holders, available := if r.outbound = .agreeing then r.available else r.available + 1 }
  else { r with requests := dropFirst n r.requests }

theorem giveBackCredit_eq (d : Side) (n : Nat) (s : State) : giveBackCredit d n s =
    if n ∈ (s.side d).holders then
      grantCredits d (updSide d (·.givenBack n) (updOrder n (fun o => { o with heldCredit := false }) s))
    else updSide d (·.givenBack n) (updOrder n (fun o => { o with heldCredit := false }) s) := by
  have hu (t : State) (f g : SideRec → SideRec) (hfg : f (t.side d) = g (t.side d)) : updSide d f t = updSide d g t := by
    cases d <;> simp only [updSide, State.side] at * <;> rw [hfg]
  unfold giveBackCredit
  simp only [updOrder_side]
  split
  · next hm => rw [hu _ _ (·.givenBack n) (by simp [SideRec.givenBack, hm])]
  · next hm => rw [hu _ _ (·.givenBack n) (by simp [SideRec.givenBack, hm])]

/-- Giving back strikes the order from the claims. -/
theorem givenBack_claims {r : SideRec} {n : Nat} (h : r.claims.Nodup) :
    (r.givenBack n).claims.Sublist r.claims ∧ n ∉ (r.givenBack n).claims := by
  rw [SideRec.claims, List.nodup_append] at h
  obtain ⟨h1, h2, h3⟩ := h
  unfold SideRec.givenBack
  split
  · next hm =>
    simp only [SideRec.claims, dropFirst_eq_erase]
    refine ⟨List.erase_sublist.append (.refl _), ?_⟩
    simp only [List.mem_append, not_or]
    exact ⟨h1.not_mem_erase, fun hr => h3 n hm n hr rfl⟩
  · next hm =>
    simp only [SideRec.claims, dropFirst_eq_erase]
    refine ⟨(List.Sublist.refl _).append List.erase_sublist, ?_⟩
    simp only [List.mem_append, not_or]
    exact ⟨hm, h2.not_mem_erase⟩

theorem givenBack_fits {r : SideRec} {n adv : Nat} {c : Prop} (h : r.CreditFits adv c) : (r.givenBack n).CreditFits adv c := by
  obtain ⟨f1, f2, f3, f4, f5⟩ := h
  unfold SideRec.givenBack
  split
  · next hm =>
    have hlen : (dropFirst n r.holders).length + 1 = r.holders.length := by
      rw [dropFirst_eq_erase, List.length_erase_of_mem hm]
      have := List.length_pos_of_mem hm
      omega
    refine ⟨?_, f2, ?_, f4, f5⟩
    · dsimp only
      split <;> omega
    · intro ho
      rw [if_pos ho]
      exact f3 ho
  · exact ⟨f1, f2, f3, f4, f5⟩

theorem giveBackCredit_kept {d : Side} {n : Nat} (h : Kept a s) : Kept a (giveBackCredit d n s) := by
  have hu : Kept a (updSide d (·.givenBack n) (updOrder n (fun o => { o with heldCredit := false }) s)) := by
    refine updSide_kept (updOrder_kept h) (fun k => ?_) (fun k => givenBack_fits (k.fits d))
      fun k => (givenBack_claims (k.claims.once d)).1.subperm
    rw [updOrder_side] at *
    unfold SideRec.givenBack
    split <;> exact k
  rw [giveBackCredit_eq]
  split
  exacts [grantCredits_kept hu, hu]

/-- A grant leaves the claims as they stand, and what else the sequencer's orders and the other lane hold. -/
theorem grantFrom_claims {d : Side} {l : List Nat} {s : State} (hl : (s.side d).requests = l) :
    (grantFrom d l s).marks = s.marks ∧ (∀ e, ((grantFrom d l s).side e).claims = (s.side e).claims)
      ∧ ((grantFrom d l s).seq.arm = s.seq.arm) ∧ ((s.seq.inArm = none) → (grantFrom d l s).seq.inArm = none) := by
  refine grantFrom_induct (P := fun t => t.marks = s.marks ∧ (∀ e, (t.side e).claims = (s.side e).claims)
    ∧ t.seq.arm = s.seq.arm ∧ (s.seq.inArm = none → t.seq.inArm = none)) ?_ hl ⟨rfl, fun _ => rfl, rfl, id⟩
  rintro t n rest ⟨h1, h2, h3, h4⟩ hg hr
  refine ⟨?_, fun e => ?_, ?_, fun hn => ?_⟩
  · rw [grantCredit, marks_holdCredit, marks_updSide, marks_updSide, h1]
  · rw [← h2 e]
    by_cases he : e = d
    · subst he
      rw [grantCredit_side, updSide_side]
      simp [SideRec.claims, hr]
    · rw [grantCredit, updOrder_side, updSide_other he, updSide_other he]
  · simpa [grantCredit, updOrder] using h3
  · simp [grantCredit, updOrder, h4 hn]

theorem grantCredits_claims (d : Side) (s : State) :
    (grantCredits d s).marks = s.marks ∧ (∀ e, ((grantCredits d s).side e).claims = (s.side e).claims)
      ∧ ((grantCredits d s).seq.arm = s.seq.arm) ∧ ((s.seq.inArm = none) → (grantCredits d s).seq.inArm = none) :=
  grantFrom_claims rfl

/-- Giving back a credit or a request: no order changes its number or to-location, and the order has no claim on the lane. -/
theorem giveBackCredit_claims {d : Side} {n : Nat} (k : s.ClaimsLaw) :
    (giveBackCredit d n s).marks = s.marks ∧ n ∉ ((giveBackCredit d n s).side d).claims := by
  have hm : (updSide d (·.givenBack n) (updOrder n (fun o => { o with heldCredit := false }) s)).marks = s.marks := by
    rw [marks_updSide, marks_holdCredit]
  have hn : n ∉ ((updSide d (·.givenBack n) (updOrder n (fun o => { o with heldCredit := false }) s)).side d).claims := by
    rw [updSide_side, updOrder_side]
    exact (givenBack_claims (k.once d)).2
  rw [giveBackCredit_eq]
  split
  · obtain ⟨h1, h2, -⟩ := grantCredits_claims d (updSide d (·.givenBack n) (updOrder n (fun o => { o with heldCredit := false }) s))
    exact ⟨h1.trans hm, by rwa [h2]⟩
  · exact ⟨hm, hn⟩

theorem spendCredit_kept {d : Side} {n : Nat} (h : Kept a s) : Kept a (spendCredit d n s) := by
  refine updSide_kept h id (fun k => ?_) fun _ => ?_
  · obtain ⟨f1, f2, f3, f4, f5⟩ := k.fits d
    refine ⟨?_, f2, f3, f4, f5⟩
    have hlen : (dropFirst n (s.side d).holders).length ≤ (s.side d).holders.length := by
      rw [dropFirst_eq_erase]; exact List.length_erase_le
    dsimp only
    omega
  · simp only [SideRec.claims, dropFirst_eq_erase]
    exact (List.erase_sublist.append List.erase_sublist).subperm

/-- An order without a claim that is bound for a lane's mouth asks for a credit. -/
theorem askCredit_kept {d : Side} {n : Nat} (h : Kept a s)
    (hn : a.CreditLaw → n ∉ (s.side d).claims ∧ (n, Loc.mouth d) ∈ s.marks) : Kept a (askCredit d n s) := by
  have claim (f : SideRec → SideRec) (hp : s.CreditLaw → (f (s.side d)).claims.Perm (n :: (s.side d).claims))
      (hl : (f (s.side d)).inbound = (s.side d).inbound ∧ (f (s.side d)).undelivered = (s.side d).undelivered)
      (hf : s.CreditLaw → (f (s.side d)).CreditFits (s.advertised d) (s.host.state = .config)) : Kept a (updSide d f s) := by
    refine updSide_keptOf h (by rw [hl.1, hl.2]; exact id) fun ka k => ?_
    obtain ⟨h1, h2⟩ := hn ka
    refine ⟨k.claims.updSide ((hp k).nodup_iff.mpr (List.nodup_cons.mpr ⟨h1, k.claims.once d⟩)) fun m hm => ?_,
      creditFits_updSide k.fits (hf k)⟩
    obtain rfl | hm := List.mem_cons.mp ((hp k).subset hm)
    exacts [h2, k.claims.held d m hm]
  unfold askCredit
  split
  · next hg =>
    simp only [SideRec.canGrant, Bool.and_eq_true, decide_eq_true_eq, List.isEmpty_iff] at hg
    refine updOrder_kept (claim _ (fun _ => ?_) ⟨rfl, rfl⟩ fun k => ?_)
    · simp only [SideRec.claims, hg.2, List.append_nil]
      exact List.perm_append_singleton ..
    · obtain ⟨f1, f2, f3, f4, f5⟩ := k.fits d
      refine ⟨?_, f2, by simp [hg.1.1], f4, f5⟩
      have := hg.1.2
      simp only [List.length_append, List.length_singleton]
      omega
  · split
    · refine claim _ (fun _ => ?_) ⟨rfl, rfl⟩ fun k => k.fits d
      simp only [SideRec.claims, ← List.append_assoc]
      exact List.perm_append_singleton ..
    · exact h

/-! ### A lane agreed (R138) -/

/-- One reservation withdrawn: the order goes back to the front of the requests. -/
def withdrawOne (d : Side) (n : Nat) (s : State) : State :=
  updOrder n (fun o => { o with heldCredit := false })
    (updSide d (fun r => { r with holders := dropFirst n r.holders, requests := n :: r.requests }) s)

/-- What withdrawing reservations keeps: everything but who among the claimants holds a credit. -/
structure Withdrawn (d : Side) (s t : State) : Prop where
  marks : t.marks = s.marks
  arm : t.seq.arm = s.seq.arm
  inArm : s.seq.inArm = none → t.seq.inArm = none
  queue : t.seq.queue.map (·.number) = s.seq.queue.map (·.number)
  other : ∀ e, e ≠ d → t.side e = s.side e
  side : ∃ hs rs, t.side d = { s.side d with holders := hs, requests := rs }
  claims : (t.side d).claims.Perm (s.side d).claims
  holders : (t.side d).holders ⊆ (s.side d).holders
  outside : t = { s with seq := t.seq, lane := t.lane }

theorem Withdrawn.refl (d : Side) (s : State) : Withdrawn d s s :=
  ⟨rfl, rfl, id, rfl, fun _ _ => rfl, ⟨_, _, rfl⟩, .refl _, fun _ => id, rfl⟩

theorem Withdrawn.trans {d : Side} {s t u : State} (h : Withdrawn d s t) (k : Withdrawn d t u) : Withdrawn d s u where
  marks := k.marks.trans h.marks
  arm := k.arm.trans h.arm
  inArm := k.inArm ∘ h.inArm
  queue := k.queue.trans h.queue
  other e he := (k.other e he).trans (h.other e he)
  side := by
    obtain ⟨hs, rs, e⟩ := h.side
    obtain ⟨hs', rs', e'⟩ := k.side
    exact ⟨hs', rs', by rw [e', e]⟩
  claims := k.claims.trans h.claims
  holders := List.Subset.trans k.holders h.holders
  outside := by rw [k.outside, h.outside]

theorem withdrawOne_withdrawn {d : Side} {n : Nat} (hn : n ∈ (s.side d).holders) : Withdrawn d s (withdrawOne d n s) where
  marks := by rw [withdrawOne, marks_holdCredit, marks_updSide]
  arm := by simp [withdrawOne, updOrder]
  inArm h := by simp [withdrawOne, updOrder, h]
  queue := by
    simp only [withdrawOne, updOrder, updWhere, updSide_seq, List.map_map]
    refine List.map_congr_left fun o _ => ?_
    simp only [Function.comp_apply]
    split <;> rfl
  other e he := by rw [withdrawOne, updOrder_side, updSide_other he]
  side := ⟨_, _, by rw [withdrawOne, updOrder_side, updSide_side]⟩
  claims := by
    rw [withdrawOne, updOrder_side, updSide_side]
    simp only [SideRec.claims, dropFirst_eq_erase]
    exact (List.perm_middle).trans ((List.perm_cons_erase hn).symm.append_right _)
  holders := by
    rw [withdrawOne, updOrder_side, updSide_side, dropFirst_eq_erase]
    exact List.erase_subset
  outside := by cases d <;> rfl

/-- Withdrawing goes on until the agreed capacity covers the reservations, or none is left to an order still queued. -/
theorem withdrawFrom_spec {d : Side} {l : List Nat} {s : State} (hl : l.Nodup) (hs : ∀ n ∈ l, n ∈ (s.side d).holders)
    (hh : (s.side d).holders.Nodup)
    (hq : ∀ n ∈ (s.side d).holders, n ∈ l ∨ n ∉ s.seq.queue.map (·.number)) :
    Withdrawn d s (withdrawFrom d l s) ∧ (((withdrawFrom d l s).side d).holders.length ≤ (s.side d).agreed
      ∨ ∀ n ∈ ((withdrawFrom d l s).side d).holders, n ∉ s.seq.queue.map (·.number)) := by
  induction l generalizing s with
  | nil => exact ⟨.refl .., .inr fun n hn => (hq n hn).resolve_left (by simp)⟩
  | cons n l ih =>
    obtain ⟨hnl, hl⟩ := List.nodup_cons.mp hl
    unfold withdrawFrom
    split
    · next hfit => exact ⟨.refl .., .inl hfit⟩
    · split
      · next hin =>
        have hw := withdrawOne_withdrawn (d := d) (hs n (by simp))
        obtain ⟨h', r', he⟩ := hw.side
        have herase : ((withdrawOne d n s).side d).holders = (s.side d).holders.erase n := by
          rw [withdrawOne, updOrder_side, updSide_side, dropFirst_eq_erase]
        obtain ⟨k1, k2⟩ := ih (s := withdrawOne d n s) hl
          (fun m hm => by
            rw [herase]
            exact (List.mem_erase_of_ne (fun e : m = n => hnl (e ▸ hm))).mpr (hs m (List.mem_cons_of_mem _ hm)))
          (by rw [herase]; exact hh.erase _)
          (fun m hm => by
            rw [herase] at hm
            rw [hw.queue]
            refine (hq m (List.mem_of_mem_erase hm)).imp_left fun hm' => ?_
            obtain rfl | hm' := List.mem_cons.mp hm'
            exacts [absurd hm hh.not_mem_erase, hm'])
        rw [hw.queue, show ((withdrawOne d n s).side d).agreed = (s.side d).agreed by rw [he]] at k2
        exact ⟨hw.trans k1, k2⟩
      · next hout =>
        refine ih hl (fun m hm => hs m (List.mem_cons_of_mem _ hm)) hh fun m hm => ?_
        obtain hm' | hm' := hq m hm
        · obtain rfl | hm' := List.mem_cons.mp hm'
          · refine .inr fun hx => hout ?_
            obtain ⟨o, ho, rfl⟩ := List.mem_map.mp hx
            exact List.any_eq_true.mpr ⟨o, ho, by simp⟩
          · exact .inl hm'
        · exact .inr hm'

/-- Of the orders that are not queued at most one, the one in the arm position, can hold a credit. -/
theorem holders_le_one (k : s.ClaimsLaw) {d : Side} {l : List Nat} (hl : l.Nodup) (hs : l ⊆ (s.side d).claims)
    (hq : ∀ n ∈ l, n ∉ s.seq.queue.map (·.number)) : l.length ≤ 1 := by
  have hone (n) (hn : n ∈ l) : ∃ o, s.seq.inArm = some o ∧ o.number = n := by
    obtain ⟨o, ho, e, -⟩ := mem_marks.mp (k.held d n (hs hn))
    simp only [State.orders, List.mem_append, Option.mem_toList] at ho
    obtain ho | ho := ho
    · exact absurd (List.mem_map.mpr ⟨o, ho, e⟩) (hq n hn)
    · exact ⟨o, ho, e⟩
  match l with
  | [] => simp
  | [n] => simp
  | n :: m :: t =>
    obtain ⟨o, ho, rfl⟩ := hone n (by simp)
    obtain ⟨o', ho', rfl⟩ := hone m (by simp)
    rw [ho] at ho'
    cases ho'
    simp at hl

/-- The side as the facing capacity sets its agreed capacity (R138). -/
def agreed (d : Side) (c : Nat) (s : State) : State := updSide d (fun r => { r with agreed := min (s.advertised d) c }) s

/-- The side once the reservations beyond its agreed capacity have been withdrawn (R138). -/
def covered (d : Side) (c : Nat) (s : State) : State := withdrawFrom d (s.side d).holders.reverse (agreed d c s)

theorem agreed_side (d : Side) (c : Nat) (s : State) : (agreed d c s).side d = { s.side d with agreed := min (s.advertised d) c } :=
  updSide_side ..

/-- Withdrawing leaves no more reservations than the agreed capacity covers: beyond it only the order in flight could hold one. -/
theorem covered_spec {d : Side} {c : Nat} (hc : c ≠ 0) (k : s.CreditLaw) : Withdrawn d (agreed d c s) (covered d c s)
    ∧ ((covered d c s).side d).holders.length ≤ min (s.advertised d) c := by
  have hh : ((agreed d c s).side d).holders = (s.side d).holders := by rw [agreed_side]
  have hn : (s.side d).holders.Nodup := (List.nodup_append.mp (k.claims.once d)).1
  have hq : (agreed d c s).seq.queue = s.seq.queue := by simp only [agreed, updSide_seq]
  obtain ⟨hw, hfit⟩ := withdrawFrom_spec (d := d) (s := agreed d c s) (List.nodup_reverse.mpr hn)
    (fun n h => hh ▸ List.mem_reverse.mp h) (hh ▸ hn) fun n h => .inl (List.mem_reverse.mpr (hh ▸ h))
  refine ⟨hw, ?_⟩
  rw [hq, show ((agreed d c s).side d).agreed = min (s.advertised d) c by rw [agreed_side]] at hfit
  refine hfit.elim id fun hfit => ?_
  have hsub : ((covered d c s).side d).holders ⊆ (s.side d).holders := hh ▸ hw.holders
  have hnd : ((covered d c s).side d).holders.Nodup := by
    have := hw.claims.nodup_iff.mpr (by rw [agreed_side]; exact k.claims.once d)
    exact (List.nodup_append.mp this).1
  have hle := holders_le_one k.claims hnd (List.Subset.trans hsub (List.subset_append_left ..)) hfit
  by_cases h0 : ((covered d c s).side d).holders = []
  · simp [h0]
  · obtain ⟨n, hx⟩ := List.exists_mem_of_ne_nil _ h0
    have hpos := List.length_pos_of_mem (hsub hx)
    obtain ⟨f1, f2, -⟩ := k.fits d
    omega

/-- A withdrawal keeps what the claims are. -/
theorem Withdrawn.claimsLaw {d : Side} {t : State} (h : Withdrawn d s t) (k : s.ClaimsLaw) : t.ClaimsLaw := by
  refine ⟨h.marks ▸ k.numbers, fun e => h.inArm (k.idle (h.arm ▸ e)), fun e => ?_, fun e n hn => ?_⟩
  · by_cases he : e = d
    · subst he; exact h.claims.nodup_iff.mpr (k.once e)
    · rw [h.other e he]; exact k.once e
  · rw [h.marks]
    by_cases he : e = d
    · subst he; exact k.held e n (h.claims.subset hn)
    · rw [h.other e he] at hn; exact k.held e n hn

/-- Withdrawing touches the orders' held credit and the lane's two lists of claims only. -/
theorem withdrawFrom_frame (d : Side) (l : List Nat) (s : State) :
    withdrawFrom d l s = { s with seq := (withdrawFrom d l s).seq, lane := (withdrawFrom d l s).lane }
      ∧ (withdrawFrom d l s).seq.queue.length = s.seq.queue.length
      ∧ ∀ e, ∃ hs rs, (withdrawFrom d l s).side e = { s.side e with holders := hs, requests := rs } := by
  induction l generalizing s with
  | nil => exact ⟨rfl, rfl, fun _ => ⟨_, _, rfl⟩⟩
  | cons n l ih =>
    unfold withdrawFrom
    split
    · exact ⟨rfl, rfl, fun _ => ⟨_, _, rfl⟩⟩
    · split
      · obtain ⟨h1, h2, h3⟩ := ih (withdrawOne d n s)
        refine ⟨?_, h2.trans ?_, fun e => ?_⟩
        · exact h1.trans (by cases d <;> rfl)
        · simp [withdrawOne, updOrder]
        · obtain ⟨hs, rs, he⟩ := h3 e
          refine ⟨hs, rs, he.trans ?_⟩
          cases d <;> cases e <;> rfl
      · exact ih s

/-- A side agreed with its neighbour, of a station that is not in CONFIG. -/
theorem agreeLane_kept {d : Side} {c o u : Nat} (h : Kept a s) (hc : c ≠ 0) (hs : s.host.state ≠ .config) :
    Kept a (agreeLane d c o u s) := by
  have hl : (s.side d).holders = ((agreed d c s).side d).holders := by rw [agreed_side]
  have heq : agreeLane d c o u s = grantCredits d (updSide d (fun r => { r with
      available := r.agreed - o - r.reserved - u, outbound := if r.hold then .held else .isOpen }) (covered d c s)) := by
    rw [covered, hl]; rfl
  obtain ⟨hf, hlen, hsame⟩ := withdrawFrom_frame d (s.side d).holders.reverse (agreed d c s)
  rw [← covered] at hf hlen hsame
  have hsame (e : Side) : ((covered d c s).side e).inbound = (s.side e).inbound
      ∧ ((covered d c s).side e).undelivered = (s.side e).undelivered := by
    obtain ⟨hs, rs, he⟩ := hsame e
    rw [he]
    cases d <;> cases e <;> exact ⟨rfl, rfl⟩
  have hhost : (covered d c s).host = s.host := by rw [hf, agreed, updSide_host]
  rw [heq]
  refine grantCredits_kept (h.seqLane (.inr ?_) (fun k => ?_) (fun _ k => ?_) ?_)
  · rw [updSide_seq, hlen, agreed, updSide_seq]
  · refine forall_updSide (P := fun _ r => r.inbound.length ≤ 6 ∧ r.undelivered.length ≤ 6) ?_ fun e => ?_
    · rw [(hsame d).1, (hsame d).2]; exact k d
    · rw [(hsame e).1, (hsame e).2]; exact k e
  · obtain ⟨hw, hfit⟩ := covered_spec hc k
    have hagreed : (agreed d c s).ClaimsLaw := k.claims.updSide (k.claims.once d) (k.claims.held d)
    have hcov := hw.claimsLaw hagreed
    have hadv (e : Side) : (covered d c s).advertised e = s.advertised e := by
      simp only [State.advertised, State.settings, hhost]
    obtain ⟨hs', rs', hside⟩ := hw.side
    rw [agreed_side] at hside
    refine ⟨hcov.updSide (hcov.once d) (hcov.held d), ?_⟩
    simp only [advertised_updSide, updSide_host, hadv, hhost]
    intro e
    by_cases he : e = d
    · subst he
      rw [updSide_side]
      rw [hside] at hfit ⊢
      refine ⟨?_, Nat.min_le_left .., fun ho => ?_, fun ho => ?_, fun hx => absurd hx hs⟩
      · simp only [SideRec.reserved] at *; omega
      · simp only at ho; split at ho <;> cases ho
      · simp only at ho; split at ho <;> cases ho
    · rw [updSide_other he, hw.other e he, agreed, updSide_other he]
      exact k.fits e
  · have hx (t : State) (f : SideRec → SideRec) : updSide d f t = { t with lane := (updSide d f t).lane } := by cases d <;> rfl
    rw [hx, hf, agreed, hx]

/-- A HELLO is applied to a side, of a station that is not in CONFIG (R137, R138). -/
theorem applyHello_kept {d : Side} {x : HelloFields} {u : Nat} (h : Kept a s) (hs : s.host.state ≠ .config) :
    Kept a (applyHello d x u s) := by
  unfold applyHello
  split
  · split
    · exact updSide_kept h id fun k =>
        have ⟨f1, f2, _, f4, f5⟩ := k.fits d
        ⟨by dsimp only; omega, f2, fun _ => rfl, f4, f5⟩
    · next hc => exact agreeLane_kept h hc hs
  · exact h

/-! ### Orders taken, redirected and removed -/

theorem askDst_kept {l : Loc} {n : Nat} (h : Kept a s)
    (hn : a.CreditLaw → ∀ d, l = .mouth d → n ∉ (s.side d).claims ∧ (n, Loc.mouth d) ∈ s.marks) : Kept a (askDst l n s) := by
  unfold askDst
  split
  exacts [askCell_kept h, askCredit_kept h fun k => hn k _ rfl, h, h]

/-- The number of a new order is none of those held (R114). -/
theorem nextOrder_not_mem (k : s.seq.queue.length ≤ 12) : s.nextOrder ∉ s.marks.map Prod.fst := by
  rw [← orderNumbers_eq]
  refine freshNumber_not_mem _ ?_
  have : s.seq.inArm.toList.length ≤ 1 := by cases s.seq.inArm <;> simp
  simp only [State.orderNumbers, State.orders, List.length_map, List.length_append]
  omega

/-- A claim is one of an order held. -/
theorem State.ClaimsLaw.not_claim (k : s.ClaimsLaw) {n : Nat} (hn : n ∉ s.marks.map Prod.fst) (d : Side) : n ∉ (s.side d).claims :=
  fun h => hn (List.mem_map_of_mem (f := Prod.fst) (k.held d n h))

/-- An order with a number of its own joins the queue. -/
def enqueued (o : ArmOrder) (c : Nat) (s : State) : State := { s with seq := { s.seq with queue := s.seq.queue ++ [o], counter := c } }

theorem enqueued_marks (o : ArmOrder) (c : Nat) (s : State) : (enqueued o c s).marks.Perm ((o.number, o.dst) :: s.marks) := by
  simp only [State.marks, State.orders, enqueued, ← List.map_cons (f := fun o : ArmOrder => (o.number, o.dst))]
  refine List.Perm.map _ ?_
  rw [List.append_assoc]
  exact List.perm_middle

theorem enqueued_kept {o : ArmOrder} {c : Nat} (h : Kept a s) (hr : s.seq.queue.length < 12) (hn : o.number ∉ s.marks.map Prod.fst) :
    Kept a (enqueued o c s) := by
  have hp := enqueued_marks o c s
  refine h.seq (.inl (by simp only [enqueued, List.length_append, List.length_singleton]; omega))
    fun k => ⟨⟨?_, k.claims.idle, k.claims.once, fun d n hd => hp.mem_iff.mpr (List.mem_cons_of_mem _ (k.claims.held d n hd))⟩, k.fits⟩
  exact (hp.map Prod.fst).nodup_iff.mpr (List.nodup_cons.mpr ⟨hn, k.claims.numbers⟩)

/-- What a change leaves of the sequencer's orders and of the lanes' claims. -/
structure SameClaims (s t : State) : Prop where
  marks : t.marks = s.marks
  claims : ∀ d, (t.side d).claims = (s.side d).claims

theorem SameClaims.refl (s : State) : SameClaims s s := ⟨rfl, fun _ => rfl⟩

theorem SameClaims.trans {s t u : State} (h : SameClaims s t) (k : SameClaims t u) : SameClaims s u :=
  ⟨k.marks.trans h.marks, fun d => (k.claims d).trans (h.claims d)⟩

theorem sameClaims_of {s t : State} (hs : t.seq = s.seq) (hl : t.lane = s.lane) : SameClaims s t :=
  ⟨by simp only [State.marks, State.orders, hs], fun d => by cases d <;> simp only [State.side, hl]⟩

theorem updOrder_sameClaims {n : Nat} {f : ArmOrder → ArmOrder} (hn : ∀ o, (f o).number = o.number := by exact fun _ => rfl)
    (hd : ∀ o, (f o).dst = o.dst := by exact fun _ => rfl) : SameClaims s (updOrder n f s) :=
  ⟨marks_updOrder hn hd, fun d => by rw [updOrder_side]⟩

theorem setCell_sameClaims {i : Nat} {c : CellPos} : SameClaims s (setCell i c s) := sameClaims_of rfl rfl

theorem updPrompt_sameClaims {n : Nat} {f : Prompt → Prompt} : SameClaims s (updPrompt n f s) := sameClaims_of rfl rfl

theorem grantCell_sameClaims {i : Nat} {w : Holder} : SameClaims s (grantCell i w s) := by
  cases w
  · exact setCell_sameClaims.trans updPrompt_sameClaims
  · exact setCell_sameClaims.trans (updOrder_sameClaims (hn := fun _ => rfl) (hd := fun _ => rfl))

theorem freeCell_sameClaims {i : Nat} : SameClaims s (freeCell i s) := by
  unfold freeCell
  split
  · exact setCell_sameClaims
  · next w rest _ =>
    exact SameClaims.trans (t := { s with prm := { s.prm with waiters := rest } }) (sameClaims_of rfl rfl) grantCell_sameClaims

theorem releaseSrc_sameClaims {o : ArmOrder} : SameClaims s (releaseSrc o s) := by
  unfold releaseSrc
  split
  · exact SameClaims.trans updOrder_sameClaims freeCell_sameClaims
  · exact .refl s

/-- PROMPT CLEARED and a waiting NOTICE withdrawn change the prompt and the line only (R168). -/
theorem clearEscalated_eq (n : Nat) (s : State) :
    clearEscalated n s = { s with line := (clearEscalated n s).line, prm := (clearEscalated n s).prm } := by
  have hoffer (t : State) : offerAll (.promptCleared n) t = { t with line := (offerAll (.promptCleared n) t).line } := by
    unfold offerAll offerTx enterQueue
    dsimp only [frameEntered]
    split
    · rfl
    · split <;> rfl
  unfold clearEscalated
  split
  · split
    · dsimp only
      split
      · rw [hoffer]; rfl
      · rfl
      · rfl
    · rfl
  · rfl

theorem handOver_eq (n m : Nat) (s : State) :
    handOver n m s = { s with line := (handOver n m s).line, prm := (handOver n m s).prm } := by
  unfold handOver
  split
  · dsimp only
    rw [clearEscalated_eq]
    split <;> rfl
  · rfl

/-- An offer is taken where the order queue has a place (R114). -/
theorem takeOrder_kept {o : ArmOrder} {p : Option Nat} (h : Kept a s) (hr : s.seq.queue.length < 12) : Kept a (takeOrder o p s) := by
  have hfresh := nextOrder_not_mem (s := s) (by omega)
  have hq : Kept a (enqueued { o with number := s.nextOrder, estimate := s.legEstimate o.src o.dst } (wrapSucc 256 s.nextOrder) s) :=
    enqueued_kept h hr hfresh
  have ask {t : State} (ht : Kept a t)
      (hs : SameClaims (enqueued { o with number := s.nextOrder, estimate := s.legEstimate o.src o.dst } (wrapSucc 256 s.nextOrder) s) t) :
      Kept a (if o.form = .readOnly then t else askDst o.dst s.nextOrder t) := by
    split
    · exact ht
    · refine askDst_kept ht fun k d hd => ?_
      rw [hs.marks, hs.claims]
      exact ⟨(h.credit k).claims.not_claim hfresh d, (enqueued_marks ..).mem_iff.mpr (by simp [hd])⟩
  cases p with
  | none => exact ask hq (.refl _)
  | some p =>
    refine ask (handOver_kept hq) ?_
    show SameClaims _ (handOver p s.nextOrder _)
    rw [handOver_eq]
    exact sameClaims_of rfl rfl

/-- The order of a number and to-location that the sequencer holds gives back what it holds: nothing of it is claimed any more. -/
theorem releaseDst_claims {o : ArmOrder} (k : s.ClaimsLaw) (ho : (o.number, o.dst) ∈ s.marks) :
    (releaseDst o s).marks = s.marks ∧ ∀ d, o.number ∉ ((releaseDst o s).side d).claims := by
  have hother (d) (hd : o.dst ≠ .mouth d) : o.number ∉ (s.side d).claims := by
    intro hc
    have := List.inj_on_of_nodup_map k.numbers (k.held d _ hc) ho rfl
    exact hd (congrArg Prod.snd this).symm
  unfold releaseDst
  split
  · next hc =>
    split
    · next i _ =>
      have hs := (updOrder_sameClaims (s := s) (n := o.number) (f := fun o => { o with dstPos := none })).trans
        (freeCell_sameClaims (i := i))
      exact ⟨hs.marks, fun d => by rw [hs.claims]; exact hother d (by simp [hc])⟩
    · have hs : SameClaims s (strikeWaiter (.order o.number) (updOrder o.number (fun o => { o with waitingCell := false }) s)) :=
        SameClaims.trans updOrder_sameClaims (sameClaims_of rfl rfl)
      exact ⟨hs.marks, fun d => by rw [hs.claims]; exact hother d (by simp [hc])⟩
  · next e he =>
    obtain ⟨h1, h2⟩ := giveBackCredit_claims (d := e) (n := o.number) k
    refine ⟨h1, fun d => ?_⟩
    by_cases hd : d = e
    · subst hd; exact h2
    · have hsame : (giveBackCredit e o.number s).side d = s.side d ∨ ((giveBackCredit e o.number s).side d).claims = (s.side d).claims := by
        rw [giveBackCredit_eq]
        split
        · exact .inr (by rw [(grantCredits_claims ..).2.1, updSide_other hd, updOrder_side])
        · exact .inl (by rw [updSide_other hd, updOrder_side])
      have hcl : ((giveBackCredit e o.number s).side d).claims = (s.side d).claims := hsame.elim (fun e => by rw [e]) id
      rw [hcl]
      exact hother d fun e' => hd (by rw [he] at e'; cases e'; rfl)
  · next hd => exact ⟨rfl, fun d => hother d (by simp [hd])⟩
  · next hd => exact ⟨rfl, fun d => hother d (by simp [hd])⟩

theorem releaseDst_kept {o : ArmOrder} (h : Kept a s) : Kept a (releaseDst o s) := by
  unfold releaseDst
  split
  · split
    · exact freeCell_kept (updOrder_kept h)
    · exact strikeWaiter_kept (updOrder_kept h)
  · exact giveBackCredit_kept h
  · exact h
  · exact h

theorem releaseSrc_kept {o : ArmOrder} (h : Kept a s) : Kept a (releaseSrc o s) := by
  unfold releaseSrc
  split
  · exact freeCell_kept (updOrder_kept h)
  · exact h

/-- The to-location of an order without a claim changes. -/
theorem updOrderDst_kept {n : Nat} {f : ArmOrder → ArmOrder} (h : Kept a s) (hf : ∀ o, (f o).number = o.number)
    (hn : a.CreditLaw → ∀ d, n ∉ (s.side d).claims) : Kept a (updOrder n f s) := by
  have hmap : (updOrder n f s).orders = s.orders.map fun o => if o.number = n then f o else o := by
    cases h : s.seq.inArm <;> simp [State.orders, updOrder, updWhere, h]
  have hnum : (updOrder n f s).marks.map Prod.fst = s.marks.map Prod.fst := by
    simp only [State.marks, hmap, List.map_map]
    refine List.map_congr_left fun o _ => ?_
    simp only [Function.comp_apply]
    split <;> simp [hf]
  refine h.seqLane (.inr (length_updWhere ..).le) (fun k d => by rw [updOrder_side]; exact k d) fun ka k =>
    ⟨⟨hnum ▸ k.claims.numbers, updOrder_idle k.claims.idle, fun d => by rw [updOrder_side]; exact k.claims.once d, fun d m hm => ?_⟩,
      fun d => by rw [updOrder_side]; exact k.fits d⟩
  rw [updOrder_side] at hm
  obtain ⟨o, ho, rfl, hd⟩ := mem_marks.mp (k.claims.held d m hm)
  refine mem_marks.mpr ⟨o, ?_, rfl, hd⟩
  rw [hmap]
  refine List.mem_map.mpr ⟨o, ho, ?_⟩
  exact if_neg fun e : o.number = n => hn ka d (e ▸ hm)

/-- The order found by its number is one the sequencer holds. -/
theorem order_mem {n : Nat} {o : ArmOrder} (h : s.order n = some o) : o ∈ s.orders ∧ o.number = n :=
  ⟨List.mem_of_find?_eq_some h, by simpa using List.find?_some h⟩

theorem redirect_kept {n : Nat} {l : Loc} {u : CellUse} {r : Option Routing} (h : Kept a s) : Kept a (redirect n l u r s) := by
  unfold redirect
  split
  · next o ho =>
    obtain ⟨hm, rfl⟩ := order_mem ho
    have hrel (k : a.CreditLaw) := releaseDst_claims (o := o) (h.credit k).claims (mem_marks.mpr ⟨o, hm, rfl, rfl⟩)
    have hk : Kept a (updOrder o.number (fun o => { o with dst := l, cellUse := u, routing := r, laneRetry := false })
        (releaseDst o s)) := updOrderDst_kept (releaseDst_kept h) (fun _ => rfl) fun k => (hrel k).2
    refine askDst_kept hk fun k d hd => ?_
    rw [updOrder_side]
    refine ⟨(hrel k).2 d, ?_⟩
    obtain ⟨o', ho', hn', -⟩ := mem_marks.mp ((hrel k).1 ▸ mem_marks.mpr ⟨o, hm, rfl, rfl⟩ : (o.number, o.dst) ∈ (releaseDst o s).marks)
    have hmap : ∀ f, (updOrder o.number f (releaseDst o s)).orders
        = (releaseDst o s).orders.map fun x => if x.number = o.number then f x else x := by
      intro f
      cases h : (releaseDst o s).seq.inArm <;> simp [State.orders, updOrder, updWhere, h]
    refine mem_marks.mpr ⟨{ o' with dst := l, cellUse := u, routing := r, laneRetry := false }, ?_, hn', hd⟩
    rw [hmap]
    exact List.mem_map.mpr ⟨o', ho', by rw [if_pos hn']⟩
  · exact h

/-- Orders without a claim leave the sequencer, those that stay in any order. -/
theorem State.ClaimsLaw.sublist {t : State} (k : s.ClaimsLaw) (hm : t.marks.Subperm s.marks)
    (hi : t.seq.arm = .idle → t.seq.inArm = none) (hc : ∀ d, (t.side d).claims = (s.side d).claims)
    (hn : ∀ m ∈ s.marks, m ∉ t.marks → ∀ d, m.1 ∉ (s.side d).claims) : t.ClaimsLaw := by
  refine ⟨?_, hi, fun d => hc d ▸ k.once d, fun d n hd => ?_⟩
  · obtain ⟨l, hp, hs⟩ := hm
    exact (hp.map Prod.fst).nodup_iff.mp (k.numbers.sublist (hs.map _))
  · rw [hc] at hd
    by_contra hx
    exact hn _ (k.held d n hd) hx d hd

theorem removeOrder_kept {n : Nat} (h : Kept a s) : Kept a (removeOrder n s) := by
  unfold removeOrder
  split
  · next o ho =>
    have hm : o ∈ s.orders := List.mem_append_left _ (List.mem_of_find?_eq_some ho)
    obtain rfl : o.number = n := by simpa using List.find?_some ho
    have hk : Kept a (releaseSrc o (releaseDst o s)) := releaseSrc_kept (releaseDst_kept h)
    refine hk.seqLane (.inr (List.length_filter_le ..)) (fun k => k) fun ka k => ⟨k.claims.sublist ?_ k.claims.idle (fun _ => rfl) ?_, k.fits⟩
    · exact (List.Sublist.map _ (List.filter_sublist.append (.refl _))).subperm
    · rintro ⟨m, l⟩ hml hnot d
      have hno : m = o.number := by
        by_contra hne
        refine hnot (mem_marks.mpr ?_)
        obtain ⟨x, hx, rfl, hd⟩ := mem_marks.mp hml
        refine ⟨x, ?_, rfl, hd⟩
        simp only [State.orders, List.mem_append, List.mem_filter] at hx ⊢
        exact hx.imp_left fun hx => ⟨hx, by simpa using hne⟩
      subst hno
      rw [releaseSrc_sameClaims.claims]
      exact (releaseDst_claims (h.credit ka).claims (mem_marks.mpr ⟨o, hm, rfl, rfl⟩)).2 d
  · exact h

/-- The arm position is emptied of an order without a claim. -/
theorem leaveArm_kept {x : ArmState} (h : Kept a s)
    (hn : a.CreditLaw → ∀ o, s.seq.inArm = some o → ∀ d, o.number ∉ (s.side d).claims) : Kept a (leaveArm x s) := by
  refine h.seqLane (.inr (le_refl _)) (fun k => k) fun ka k => ⟨k.claims.sublist ?_ (fun _ => rfl) (fun _ => rfl) ?_, k.fits⟩
  · simp only [State.marks, State.orders, leaveArm, Option.toList_none, List.append_nil]
    exact (List.Sublist.map _ (List.sublist_append_left ..)).subperm
  · rintro ⟨m, l⟩ hml hnot d
    obtain ⟨o, ho, rfl, hd⟩ := mem_marks.mp hml
    simp only [State.orders, List.mem_append, Option.mem_toList] at ho
    obtain ho | ho := ho
    · exact absurd (mem_marks.mpr ⟨o, by simp [State.orders, leaveArm, ho], rfl, hd⟩) hnot
    · exact hn ka o ho d

/-- The order in hand is the one an operation is about. -/
def State.inHand (s : State) (o : ArmOrder) : Prop := ∃ x, s.seq.inArm = some x ∧ x.number = o.number ∧ x.dst = o.dst

theorem State.inHand.mark {o : ArmOrder} (h : s.inHand o) : (o.number, o.dst) ∈ s.marks := by
  obtain ⟨x, hx, h1, h2⟩ := h
  exact mem_marks.mpr ⟨x, by simp [State.orders, hx], h1, h2⟩

/-- An order bound for no mouth has no claim. -/
theorem State.inHand.no_claim {o : ArmOrder} (h : s.inHand o) (hd : ∀ d, o.dst ≠ .mouth d) (k : s.ClaimsLaw) :
    ∀ x, s.seq.inArm = some x → ∀ d, x.number ∉ (s.side d).claims := by
  intro x hx d hc
  obtain ⟨y, hy, h1, h2⟩ := h
  rw [hx] at hy
  cases hy
  have hxm : (x.number, x.dst) ∈ s.marks := mem_marks.mpr ⟨x, by simp [State.orders, hx], rfl, rfl⟩
  have := List.inj_on_of_nodup_map k.numbers (k.held d _ hc) hxm rfl
  exact hd d (h2 ▸ (congrArg Prod.snd this).symm)

end

end Sys2Proof.Machine


/-! The arm's issue, drives and mount records, closure: their operations keep the invariants. -/

namespace Sys2Proof.Machine

-- One proof at a time: proofs that wait for each other on threads of their own would reserve more stack than the check allows.
set_option Elab.async false

section
variable {a s : State}

/-! ### The order in the arm position -/

/-- The number of the order in hand. -/
def State.handNumber (s : State) : Option Nat := s.seq.inArm.map (·.number)

theorem handNumber_updOrder {n : Nat} {f : ArmOrder → ArmOrder} (hn : ∀ o, (f o).number = o.number := by exact fun _ => rfl) :
    (updOrder n f s).handNumber = s.handNumber := by
  simp only [State.handNumber, updOrder, Option.map_map]
  congr 1
  funext o
  simp only [Function.comp_apply]
  split <;> simp [hn]

theorem handNumber_updSide {d : Side} {f : SideRec → SideRec} : (updSide d f s).handNumber = s.handNumber := by
  simp only [State.handNumber, updSide_seq]

theorem handNumber_grantCredits (d : Side) : (grantCredits d s).handNumber = s.handNumber :=
  grantFrom_induct (P := fun t => t.handNumber = s.handNumber)
    (fun t n rest h _ _ => by rw [grantCredit, handNumber_updOrder, handNumber_updSide, handNumber_updSide, h]) rfl rfl

theorem handNumber_giveBackCredit (d : Side) (n : Nat) : (giveBackCredit d n s).handNumber = s.handNumber := by
  rw [giveBackCredit_eq]
  split
  · rw [handNumber_grantCredits, handNumber_updSide, handNumber_updOrder]
  · rw [handNumber_updSide, handNumber_updOrder]

theorem handNumber_grantCell (i : Nat) (w : Holder) : (grantCell i w s).handNumber = s.handNumber := by
  cases w
  · rfl
  · exact handNumber_updOrder

theorem handNumber_freeCell (i : Nat) : (freeCell i s).handNumber = s.handNumber := by
  unfold freeCell
  split
  · rfl
  · exact handNumber_grantCell ..

theorem handNumber_releaseDst (o : ArmOrder) : (releaseDst o s).handNumber = s.handNumber := by
  unfold releaseDst
  split
  · split
    · rw [handNumber_freeCell, handNumber_updOrder]
    · exact handNumber_updOrder (s := s)
  · exact handNumber_giveBackCredit ..
  · rfl
  · rfl

theorem handNumber_releaseSrc (o : ArmOrder) : (releaseSrc o s).handNumber = s.handNumber := by
  unfold releaseSrc
  split
  · rw [handNumber_freeCell, handNumber_updOrder]
  · rfl

/-- The order in hand leaves the sequencer with what it holds or has asked for given back. -/
theorem abandonOrder_kept {o : ArmOrder} {x : ArmState} (h : Kept a s) (ho : s.inHand o) : Kept a (abandonOrder o x s) := by
  refine leaveArm_kept (releaseSrc_kept (releaseDst_kept h)) fun k y hy d => ?_
  have hn : y.number = o.number := by
    have he : (releaseSrc o (releaseDst o s)).handNumber = s.handNumber := by
      rw [handNumber_releaseSrc, handNumber_releaseDst]
    obtain ⟨z, hz, hzn, -⟩ := ho
    simp only [State.handNumber, hy, hz, Option.map_some] at he
    exact (Option.some.inj he).trans hzn
  rw [hn, releaseSrc_sameClaims.claims]
  exact (releaseDst_claims (h.credit k).claims ho.mark).2 d

/-- The order in hand changes but for its number and to-location, and the arm with it. -/
theorem setInArm_kept {o x : ArmOrder} {st : ArmState} (h : Kept a s) (ho : s.inHand o) (hx : x.number = o.number ∧ x.dst = o.dst)
    (hst : st ≠ .idle) : Kept a (setInArm x st s) := by
  have hm : (setInArm x st s).marks = s.marks := by
    obtain ⟨y, hy, h1, h2⟩ := ho
    simp only [State.marks, State.orders, setInArm, hy, Option.toList_some, List.map_append, List.map_cons, List.map_nil, hx.1, hx.2,
      h1, h2]
  exact h.seq (.inr (le_refl _)) fun k => ⟨k.claims.congr hm (fun e => absurd e hst) fun _ => rfl, k.fits⟩

theorem setInArm_inHand {o : ArmOrder} {st : ArmState} : (setInArm o st s).inHand o := ⟨o, rfl, rfl, rfl⟩

/-- The order in hand is issued, with its ends as they stand. -/
theorem issue_kept {o : ArmOrder} (h : Kept a s) (ho : s.inHand o) : Kept a (issue o s) := by
  have hs := setInArm_kept (st := .busy) (sendArm_kept (m := .order o.number o.phases (s.locPoint o.src) o.srcPos (s.locPoint o.dst) o.dstPos) h)
    (o := o) (x := o) ho ⟨rfl, rfl⟩ (by decide)
  exact hs.seqFrame _ rfl rfl rfl

/-- The first by rank is one of the orders. -/
theorem firstByRank_mem {l : List ArmOrder} {o : ArmOrder} (h : firstByRank l = some o) : o ∈ l := by
  induction l generalizing o with
  | nil => cases h
  | cons x l ih =>
    simp only [firstByRank] at h
    split at h
    · cases h; simp
    · next p hp =>
      split at h
      · cases h; exact List.mem_cons_of_mem _ (ih hp)
      · cases h; simp

/-- An order moves from the queue to an empty arm position. -/
theorem issueQueued_kept {o : ArmOrder} (h : Kept a s) (ho : o ∈ s.seq.queue) (hi : s.seq.arm = .idle) :
    Kept a (issue o { s with seq := { s.seq with queue := s.seq.queue.filter fun p => p.number != o.number } }) := by
  refine h.seq (.inr (List.length_filter_le ..)) fun k => ⟨?_, k.fits⟩
  have hempty := k.claims.idle hi
  have hnum : (s.seq.queue.map (·.number)).Nodup := by
    simpa [State.marks, State.orders, hempty, Function.comp_def] using k.claims.numbers
  have hperm : s.seq.queue.Perm (s.seq.queue.filter (fun p => p.number != o.number) ++ [o]) := by
    obtain ⟨l, m, hl⟩ := List.append_of_mem ho
    rw [hl, List.map_append, List.map_cons, List.nodup_append, List.nodup_cons] at hnum
    obtain ⟨-, ⟨hm, -⟩, hd⟩ := hnum
    have hfl : l.filter (fun p => p.number != o.number) = l :=
      List.filter_eq_self.mpr fun p hp => by simpa using hd _ (List.mem_map_of_mem hp) _ (List.mem_cons_self ..)
    have hfm : m.filter (fun p => p.number != o.number) = m :=
      List.filter_eq_self.mpr fun p hp => by simpa using fun e => hm (List.mem_map.mpr ⟨p, hp, e⟩)
    rw [hl, List.filter_append, List.filter_cons_of_neg (by simp), hfl, hfm]
    exact List.perm_middle.trans (List.perm_append_singleton _ _).symm
  have hmarks : s.marks.Perm ((issue o { s with seq := { s.seq with
      queue := s.seq.queue.filter fun p => p.number != o.number } }).marks) := by
    simp only [State.marks, State.orders, hempty, issue, Option.toList_none, Option.toList_some, List.append_nil]
    exact hperm.map _
  exact ⟨(hmarks.map Prod.fst).nodup_iff.mp k.claims.numbers, fun e => (nomatch e), k.claims.once,
    fun d n hn => hmarks.mem_iff.mp (k.claims.held d n hn)⟩

theorem selectArm_kept (h : Kept a s) : Kept a (selectArm s) := by
  unfold selectArm
  split
  · split
    · next o ho =>
      split
      · exact issue_kept h ⟨o, ho, rfl, rfl⟩
      · exact h
    · exact h
  · next hi =>
    split
    · next o ho => exact issueQueued_kept h (List.mem_of_mem_filter (firstByRank_mem ho)) hi
    · exact h
  · exact h
  · exact h

theorem settle_keptBy {k : Bool} (h : Kept a s) : Kept a (settle k s) := by
  unfold settle refreshDisplay
  dsimp only
  split
  · exact (selectArm_kept h).prmFrame _ rfl rfl
  · exact (selectArm_kept h).prmFrame _ rfl rfl

/-! ### Who holds a drive (R90, R95) -/

/-- A record found by an id has it, and stands in the table. -/
theorem mount_spec {id : ReqId} {m : MountRec} (h : s.mount id = some m) : m ∈ s.mnt.mounts ∧ m.id = id :=
  ⟨List.mem_of_find?_eq_some h, by simpa using List.find?_some h⟩

/-- One drive and the records that name it change together: afterwards the drive names the record that holds it, and no other. -/
theorem holder_agree {t : State} {d : Nat} {r : DriveRec} {f : DriveRec → DriveRec} {g : MountRec → MountRec} (k : s.mountsAgree)
    (hr : s.drive d = some r) (hd : t.mnt.drives = s.mnt.drives.modify d f) (hm : t.mnt.mounts = s.mnt.mounts.map g)
    (hg : ∀ m, (g m).id = m.id ∧ (g m).drive = m.drive ∧ (g m).account = m.account)
    (ho : ∀ m ∈ s.mnt.mounts, m.drive ≠ d → (g m).driveHeld = m.driveHeld)
    (hh : ∀ m ∈ s.mnt.mounts, m.drive = d → ((g m).driveHeld = true ↔ (f r).mountId = some m.id))
    (hf : ∀ id, (f r).mountId = some id → (f r).state ≠ .free ∧ ∃ m, s.mount id = some m ∧ m.drive = d)
    (ht : t = { s with mnt := t.mnt } := by rfl) : t.mountsAgree := by
  obtain ⟨⟨k1, k2, k3⟩, k4⟩ := k
  have hfind (id : ReqId) : t.mount id = (s.mount id).map g := by
    simp only [State.mount, hm, List.find?_map]
    congr 2
    funext m
    simp [(hg m).1]
  have hdrive (e : Nat) : t.drive e = if d = e then some (f r) else s.drive e := by
    simp only [State.drive, hd, List.getElem?_modify]
    split
    · next e => rw [← e]; exact congrArg (Option.map f) hr
    · simp
  have hacct (n : Nat) : t.account n = s.account n := by rw [ht]; rfl
  refine ⟨⟨?_, fun e x id hx hid => ?_, fun m' hm' hheld => ?_⟩, fun n => ?_⟩
  · simpa only [hm, List.map_map, Function.comp_def, fun m => (hg m).1] using k1
  · rw [hdrive] at hx
    split at hx
    · next he =>
      subst he
      cases hx
      obtain ⟨hfree, m, hm1, hm2⟩ := hf id hid
      obtain ⟨hmem, rfl⟩ := mount_spec hm1
      exact ⟨hfree, g m, by rw [hfind, hm1]; rfl, (hg m).2.1.trans hm2, (hh m hmem hm2).mpr hid⟩
    · next he =>
      obtain ⟨hfree, m, hm1, hm2, hm3⟩ := k2 e x id hx hid
      exact ⟨hfree, g m, by rw [hfind, hm1]; rfl, (hg m).2.1.trans hm2,
        (ho m (mount_spec hm1).1 fun e' => he (e'.symm.trans hm2)).trans hm3⟩
  · rw [hm] at hm'
    obtain ⟨m, hmem, rfl⟩ := List.mem_map.mp hm'
    rw [(hg m).1, (hg m).2.1, hdrive]
    by_cases he : m.drive = d
    · exact ⟨f r, by rw [if_pos he.symm], (hh m hmem he).mp hheld⟩
    · rw [if_neg fun e => he e.symm]
      exact k3 m hmem (ho m hmem he ▸ hheld)
  · have hc : (t.mnt.mounts.filter fun m => m.account = n).length = (s.mnt.mounts.filter fun m => m.account = n).length := by
      rw [hm, List.filter_map, List.length_map]
      congr 2
      funext m
      simp [(hg m).2.2]
    rw [hacct]
    exact (k4 n).trans hc.symm

/-- The record found by an id is the only one with it. -/
theorem mount_unique (k : s.mountsAgree) {m x : MountRec} (hm : m ∈ s.mnt.mounts) (hx : x ∈ s.mnt.mounts) (he : x.id = m.id) : x = m :=
  List.inj_on_of_nodup_map k.1.1 hx hm he

/-- The holder of a drive is the record the drive names. -/
theorem holder_iff (k : s.mountsAgree) {d : Nat} {r : DriveRec} (hr : s.drive d = some r) {m : MountRec} (hm : m ∈ s.mnt.mounts)
    (hd : m.drive = d) : m.driveHeld = true ↔ r.mountId = some m.id := by
  constructor
  · intro h
    obtain ⟨r', hr', hid⟩ := k.1.2.2 m hm h
    rw [hd, hr] at hr'
    cases hr'
    exact hid
  · intro h
    obtain ⟨-, m', hm', -, hheld⟩ := k.1.2.1 d r m.id hr h
    obtain ⟨hmem, hid⟩ := mount_spec hm'
    exact mount_unique k hm hmem hid ▸ hheld

/-- A drive that a record holds is given up by it: it names none. -/
theorem giveUp_agree {t : State} {d : Nat} {r : DriveRec} {id : ReqId} {f : DriveRec → DriveRec} (k : s.mountsAgree)
    (hr : s.drive d = some r) (hid : r.mountId = some id) (hf : (f r).mountId = none)
    (hd : t.mnt.drives = s.mnt.drives.modify d f)
    (hm : t.mnt.mounts = updWhere (fun m => m.id = id) (fun m => { m with driveHeld := false }) s.mnt.mounts)
    (ht : t = { s with mnt := t.mnt } := by rfl) : t.mountsAgree := by
  refine holder_agree (g := fun m => if m.id = id then { m with driveHeld := false } else m) k hr hd
    (hm.trans (by simp [updWhere])) (fun m => by split <;> exact ⟨rfl, rfl, rfl⟩) (fun m hmem hne => ?_)
    (fun m hmem he => ?_) (fun x hx => by simp [hf] at hx) ht
  · split
    · next e =>
      obtain ⟨-, m', hm', hd', -⟩ := k.1.2.1 d r id hr hid
      obtain ⟨hmem', hid'⟩ := mount_spec hm'
      exact absurd (mount_unique k hmem hmem' (hid'.trans e.symm) ▸ hd') hne
    · rfl
  · rw [hf]
    split
    · simp
    · next e =>
      rw [holder_iff k hr hmem he, hid]
      simpa using fun e' : id = m.id => e e'.symm

theorem length_mounts_updMount {id : ReqId} {f : MountRec → MountRec} : (updMount id f s).mnt.mounts.length = s.mnt.mounts.length :=
  length_updWhere ..

theorem releaseDrive_kept {id : ReqId} (h : Kept a s) : Kept a (releaseDrive id s) := by
  unfold releaseDrive
  split
  · next m hm =>
    obtain ⟨hmem, rfl⟩ := mount_spec hm
    split
    · next hheld =>
      refine h.mnt length_mounts_updMount fun k => ?_
      obtain ⟨r, hr, hid⟩ := k.1.2.2 m hmem hheld
      exact giveUp_agree k hr hid rfl rfl rfl
    · exact h
  · exact h

/-- A record that has given up its drive holds none. -/
theorem releaseDrive_mount {id : ReqId} {m : MountRec} (h : (releaseDrive id s).mount id = some m) : m.driveHeld = false := by
  unfold releaseDrive at h
  split at h
  · next m' hm' =>
    split at h
    · have hx : (updMount id (fun m => { m with driveHeld := false }) s).mount id = some m := h
      rw [mount_updMount id id _ (by exact fun _ => rfl), hm'] at hx
      simp only [Option.map_some, Option.some.injEq, (mount_spec hm').2, if_true] at hx
      rw [← hx]
    · next hn =>
      rw [hm'] at h
      cases h
      simpa using hn
  · next hnone => rw [hnone] at h; cases h

theorem emptyDrive_kept {d : Nat} {id : ReqId} (h : Kept a s) : Kept a (emptyDrive d id s) := by
  unfold emptyDrive
  split
  · next r hr =>
    split
    · next hid => exact h.mnt (length_updWhere ..) fun k => giveUp_agree k hr hid rfl rfl rfl
    · split
      · next hid hnone =>
        refine updMount_kept (h.mnt rfl fun k => holder_agree (g := fun m => m) k hr rfl (by simp) (fun _ => ⟨rfl, rfl, rfl⟩) (fun _ _ _ => rfl)
          (fun m hm he => ?_) fun x hx => nomatch hx)
        exact (holder_iff k hr hm he).trans (by simp [hnone, DriveRec.emptied])
      · exact updMount_kept (updDrive_kept h)
  · exact h

/-! ### A reel on a drive (R91, R92) -/

theorem startEmptying_kept {d : Nat} {id : ReqId} (h : Kept a s) : Kept a (startEmptying d id s) :=
  updMount_kept (updDrive_kept h (hs := fun _ _ _ _ => by simp))

/-- A record takes a drive that no other holds by now, and the drive is not FREE. -/
theorem takeOver_agree {t : State} {d : Nat} {r : DriveRec} {id : ReqId} {m : MountRec} {f : DriveRec → DriveRec}
    {g : MountRec → MountRec} (k : s.mountsAgree) (hr : s.drive d = some r) (hm : s.mount id = some m) (hmd : m.drive = d)
    (hf : (f r).mountId = some id ∧ (f r).state ≠ .free)
    (hg : ∀ m, (g m).id = m.id ∧ (g m).drive = m.drive ∧ (g m).account = m.account) (hgm : (g m).driveHeld = true)
    (ho : ∀ x ∈ s.mnt.mounts, x.id ≠ id → (g x).driveHeld = (x.driveHeld && r.mountId != some x.id))
    (hd : t.mnt.drives = s.mnt.drives.modify d f) (hms : t.mnt.mounts = s.mnt.mounts.map g)
    (ht : t = { s with mnt := t.mnt } := by rfl) : t.mountsAgree := by
  obtain ⟨hmem, rfl⟩ := mount_spec hm
  refine holder_agree k hr hd hms hg (fun x hx hne => ?_) (fun x hx he => ?_) (fun y hy => ?_) ht
  · have hid : x.id ≠ m.id := fun e => hne (mount_unique k hmem hx e ▸ hmd)
    rw [ho x hx hid]
    have hnot : r.mountId ≠ some x.id := by
      intro e
      obtain ⟨-, y, hy, hyd, -⟩ := k.1.2.1 d r x.id hr e
      obtain ⟨hymem, hyid⟩ := mount_spec hy
      exact hne (mount_unique k hx hymem hyid ▸ hyd)
    simp [hnot]
  · rw [hf.1]
    by_cases hid : x.id = m.id
    · rw [mount_unique k hmem hx hid]
      simp [hgm]
    · rw [ho x hx hid]
      have := holder_iff k hr hx he
      simp only [Bool.and_eq_true, bne_iff_ne, ne_eq, Option.some.injEq]
      constructor
      · rintro ⟨h1, h2⟩; exact absurd (this.mp h1) h2
      · intro e; exact absurd e.symm hid
  · rw [hf.1] at hy
    cases hy
    exact ⟨hf.2, m, hm, hmd⟩

/-- A record that stands in the table is found by its id. -/
theorem mount_of_mem (k : s.mountsAgree) {m : MountRec} (hm : m ∈ s.mnt.mounts) : s.mount m.id = some m := by
  cases hf : s.mount m.id with
  | none => exact absurd (List.find?_eq_none.mp hf m hm) (by simp)
  | some x =>
    obtain ⟨hx, hid⟩ := mount_spec hf
    rw [mount_unique k hm hx hid]

/-- One mount record changes twice. -/
theorem updWhere_updWhere {α : Type} (p q : α → Bool) (f g : α → α) (l : List α) :
    updWhere p f (updWhere q g l) = l.map fun x => if p (if q x then g x else x) then f (if q x then g x else x) else if q x then g x else x := by
  simp only [updWhere, List.map_map]
  rfl

/-- A drive that no record holds is retaken to be emptied (assumption 17). -/
theorem retakeEmptying_kept {d : Nat} {id : ReqId} {r : DriveRec} {m : MountRec} (h : Kept a s) (hr : s.drive d = some r)
    (hm : s.mount id = some m) (hmd : m.drive = d) (hn : r.mountId = none) : Kept a (startEmptying d id (retakeDrive d id s)) := by
  refine h.mnt ((length_updWhere ..).trans (length_updWhere ..)) fun k => ?_
  refine takeOver_agree (g := fun m => if m.id = id then { m with stage := .returning, loadWait := none, driveHeld := true, reelLeft := false }
      else m) (f := (fun r : DriveRec => { r with state := .emptying, aboard := .loose }) ∘ fun r : DriveRec => { r with mountId := some id })
    k hr hm hmd ⟨rfl, by simp⟩ (fun m => by split <;> exact ⟨rfl, rfl, rfl⟩) (by rw [if_pos (mount_spec hm).2]) (fun x _ hx => ?_)
    (List.modify_modify_eq ..) ?_
  · simp [hx, hn]
  · refine (updWhere_updWhere ..).trans (List.map_congr_left fun x _ => ?_)
    by_cases hx : x.id = id <;> simp [hx]

/-- A drive that no record holds is taken by the record whose reel has come onto it (R92). -/
theorem takeLoose_kept {d : Nat} {id : ReqId} {r : DriveRec} {m : MountRec} (h : Kept a s) (hr : s.drive d = some r)
    (hm : s.mount id = some m) (hmd : m.drive = d) (hn : r.mountId = none) (hs : r.state ≠ .free) :
    Kept a (updMount id (fun m => { m with stage := .returning, driveHeld := true })
      (updDrive d (fun r => { r with mountId := some id, aboard := .loose }) s)) := by
  refine h.mnt (length_updWhere ..) fun k => ?_
  refine takeOver_agree (g := fun m => if m.id = id then { m with stage := .returning, driveHeld := true } else m)
    k hr hm hmd ⟨rfl, hs⟩ (fun m => by split <;> exact ⟨rfl, rfl, rfl⟩) (by rw [if_pos (mount_spec hm).2]) (fun x _ hx => ?_) rfl
    (by simp [updWhere])
  simp [hx, hn]

/-- A record whose reel lies on a drive takes the drive over from whatever record holds it (assumption 69). -/
theorem reclaimDrive_kept {d : Nat} {m : MountRec} {r : DriveRec} (h : Kept a s) (hr : s.drive d = some r) (hs : r.state ≠ .free)
    (hm : m ∈ s.mnt.mounts) (hmd : m.drive = d) : Kept a (reclaimDrive d m.id r.mountId s) := by
  unfold reclaimDrive
  split
  · next x hx =>
    refine h.mnt ((length_updWhere ..).trans (length_updWhere ..)) fun k => ?_
    refine takeOver_agree (g := fun y => if y.id = m.id then { y with driveHeld := true, reelLeft := false }
        else if y.id = x then { y with driveHeld := false } else y)
      k hr (mount_of_mem k hm) hmd ⟨rfl, hs⟩ (fun y => ?_) (by simp) (fun y _ hy => ?_) rfl ?_
    · split
      · exact ⟨rfl, rfl, rfl⟩
      · split <;> exact ⟨rfl, rfl, rfl⟩
    · rw [if_neg hy]
      by_cases hyx : y.id = x
      · simp [hyx, hx]
      · simp [hyx, hx, Ne.symm hyx]
    · refine (updWhere_updWhere ..).trans (List.map_congr_left fun y _ => ?_)
      by_cases hyx : y.id = x
      · simp only [hyx, decide_true, if_true]
        by_cases hxm : x = m.id <;> simp [hxm]
      · simp only [hyx, decide_false, Bool.false_eq_true, if_false, decide_eq_true_eq]
  · next hx =>
    refine h.mnt (length_updWhere ..) fun k => ?_
    refine takeOver_agree (g := fun y => if y.id = m.id then { y with driveHeld := true, reelLeft := false } else y)
      k hr (mount_of_mem k hm) hmd ⟨rfl, hs⟩ (fun m => by split <;> exact ⟨rfl, rfl, rfl⟩) (by simp) (fun y _ hy => ?_) rfl
      (by simp [updWhere, retakeDrive])
    simp [hy, hx]

/-! ### A record made and a record closed (R58, R110) -/

theorem awardRefusal_none {id : ReqId} {d : Nat} (h : s.awardRefusal id d = none) :
    (∃ r, s.drive d = some r ∧ r.state = .free) ∧ s.acct.spool.length + s.mnt.mounts.length < 496 ∧ s.mount id = none
      ∧ s.mnt.mounts.length < 16 := by
  unfold State.awardRefusal at h
  split at h
  · cases h
  split at h
  · cases h
  next hfree =>
  split at h
  · cases h
  next hspool =>
  split at h
  · cases h
  next hid =>
  split at h
  · cases h
  next hroom =>
  refine ⟨?_, ?_, by simpa using hid, ?_⟩
  · cases hd : s.drive d with
    | none => simp [hd] at hfree
    | some r =>
      simp only [hd, Option.map_some, Option.getD_some, DriveRec.isFree, Bool.not_eq_false, Bool.and_eq_true, decide_eq_true_eq] at hfree
      exact ⟨r, rfl, hfree.1⟩
  · exact Nat.lt_of_not_le hspool
  · exact Nat.lt_of_not_le hroom

/-- What stands under each id once a record has joined the table. -/
theorem find_append_mount {m : MountRec} (hid : s.mount m.id = none) (x : ReqId) :
    (s.mnt.mounts ++ [m]).find? (fun y => y.id = x) = if x = m.id then some m else s.mount x := by
  rw [List.find?_append]
  split
  · next e =>
    subst e
    rw [show s.mnt.mounts.find? (fun y => y.id = m.id) = none from hid]
    simp
  · next e =>
    rw [show s.mnt.mounts.find? (fun y => y.id = x) = s.mount x from rfl]
    simp [Ne.symm e]

/-- A record joins the table with a FREE drive and its account's open mounts. -/
theorem joined_agree {t : State} {m : MountRec} {r : DriveRec} {f : DriveRec → DriveRec} (k : s.mountsAgree)
    (hr : s.drive m.drive = some r) (hfree : r.state = .free) (hid : s.mount m.id = none) (hh : m.driveHeld = true)
    (hf : (f r).mountId = some m.id ∧ (f r).state ≠ .free) (hd : t.mnt.drives = s.mnt.drives.modify m.drive f)
    (hm : t.mnt.mounts = s.mnt.mounts ++ [m])
    (ha : ∀ n, (t.account n).openMounts = (s.account n).openMounts + if n = m.account then 1 else 0) : t.mountsAgree := by
  obtain ⟨⟨k1, k2, k3⟩, k4⟩ := k
  have hfind (x : ReqId) : t.mount x = if x = m.id then some m else s.mount x := by
    rw [State.mount, hm, find_append_mount hid]
  have hdrive (e : Nat) : t.drive e = if m.drive = e then some (f r) else s.drive e := by
    simp only [State.drive, hd, List.getElem?_modify]
    split
    · next e => rw [← e]; exact congrArg (Option.map f) hr
    · simp
  have hnew : m.id ∉ s.mnt.mounts.map (·.id) := by
    intro h
    obtain ⟨x, hx, he⟩ := List.mem_map.mp h
    exact List.find?_eq_none.mp hid x hx (by simpa using he)
  have hnone : r.mountId = none := by
    cases h : r.mountId with
    | none => rfl
    | some x => exact absurd hfree (k2 m.drive r x hr h).1
  refine ⟨⟨?_, fun e x id hx hxid => ?_, fun x hx hheld => ?_⟩, fun n => ?_⟩
  · rw [hm, List.map_append, List.nodup_append]
    exact ⟨k1, by simp, fun x hx y hy => by simp only [List.map_cons, List.map_nil, List.mem_singleton] at hy; exact fun e => hnew (hy ▸ e ▸ hx)⟩
  · rw [hdrive] at hx
    split at hx
    · next he =>
      cases hx
      rw [hf.1] at hxid
      cases hxid
      exact ⟨hf.2, m, by rw [hfind, if_pos rfl], he, hh⟩
    · obtain ⟨h1, y, hy, h2⟩ := k2 e x id hx hxid
      refine ⟨h1, y, ?_, h2⟩
      rw [hfind, if_neg, hy]
      rintro rfl
      rw [hid] at hy
      cases hy
  · rw [hm] at hx
    rw [hdrive]
    obtain hx | hx := List.mem_append.mp hx
    · obtain ⟨y, hy, hyid⟩ := k3 x hx hheld
      refine ⟨y, ?_, hyid⟩
      rw [if_neg, hy]
      intro e
      rw [← e, hr] at hy
      cases hy
      rw [hnone] at hyid
      cases hyid
    · cases List.mem_singleton.mp hx
      exact ⟨f r, if_pos rfl, hf.1⟩
  · rw [ha, k4 n, hm, List.filter_append, List.length_append]
    congr 1
    by_cases hn : m.account = n
    · simp [hn]
    · simp [hn, Ne.symm hn]

/-- The accounts of a state that has one account of another changed. -/
theorem account_of_tableSet {t : State} {n m : Nat} {x : Account} (ht : t.acct.accounts = tableSet Account.zero s.acct.accounts n x) :
    t.account m = if m = n then x else s.account m := by
  unfold State.account
  rw [ht]
  split
  · next e => subst e; exact tableGet_set_same ..
  · next e => rw [tableGet_set_other _ _ _ e]

/-- A mount record is made for an award that passes the accept check. -/
theorem makeMount_kept {id : ReqId} {t : RequestTerms} {d : Nat} (h : Kept a s) (hp : s.awardRefusal id d = none) :
    Kept a (makeMount id t d s) := by
  obtain ⟨⟨r, hr, hfree⟩, hspool, hid, hroom⟩ := awardRefusal_none hp
  refine evalSpool_kept (h.trans ⟨⟨rfl, rfl, rfl⟩, fun k => ?_, fun k => ?_, fun _ k => k, fun k => ?_, fun k => ?_,
    fun k => k.congr rfl rfl rfl, fun k => k⟩)
  · rw [placesFit_iff] at *
    obtain ⟨⟨k1, k2, k3, k4, k5, k6⟩, k7⟩ := k
    refine ⟨⟨k1, k2, k3, k4, ?_, k6⟩, k7⟩
    simpa [updAccount, updDrive] using hroom
  · rw [tablesOrdered_iff] at *
    obtain ⟨k1, k2, k3, k4, k5, k6⟩ := k
    exact ⟨k1, k2, k3, k4, tableWf_set k5 .., k6⟩
  · rw [spoolLaw_iff]
    simp only [updAccount, updDrive, List.length_append, List.length_singleton]
    omega
  · refine joined_agree (f := fun r => { r with state := .allocated, mountId := some id }) k hr hfree hid rfl ⟨rfl, by simp⟩ rfl rfl
      fun n => ?_
    rw [account_of_tableSet (s := s) (n := t.account) (x := { s.account t.account with openMounts := (s.account t.account).openMounts + 1 }) rfl]
    by_cases hn : n = t.account
    · simp [hn, MountRec.make]
    · simp [hn, MountRec.make]

/-- A record that holds no drive leaves the table with its account's open mounts. -/
theorem left_agree {t : State} {m : MountRec} (k : s.mountsAgree) (hm : m ∈ s.mnt.mounts) (hh : m.driveHeld = false)
    (hd : t.mnt.drives = s.mnt.drives) (hms : t.mnt.mounts = s.mnt.mounts.filter fun x => x.id != m.id)
    (ha : ∀ n, (t.account n).openMounts = (s.account n).openMounts - if n = m.account then 1 else 0) : t.mountsAgree := by
  have hk := k
  obtain ⟨⟨k1, k2, k3⟩, k4⟩ := k
  have hdrive (e : Nat) : t.drive e = s.drive e := by simp only [State.drive, hd]
  refine ⟨⟨?_, fun e x id hx hxid => ?_, fun x hx hheld => ?_⟩, fun n => ?_⟩
  · rw [hms]
    exact k1.sublist (List.filter_sublist.map _)
  · rw [hdrive] at hx
    obtain ⟨h1, y, hy, h2, h3⟩ := k2 e x id hx hxid
    obtain ⟨hymem, rfl⟩ := mount_spec hy
    refine ⟨h1, y, ?_, h2, h3⟩
    have hne : y.id ≠ m.id := fun e => by rw [mount_unique hk hm hymem e, hh] at h3; cases h3
    rw [State.mount, hms, List.find?_filter]
    refine Eq.trans ?_ hy
    refine List.find?_congr fun z _ => ?_
    by_cases hz : z.id = y.id
    · simp [hz, hne]
    · simp [hz]
  · rw [hms] at hx
    rw [hdrive]
    exact k3 x (List.mem_of_mem_filter hx) hheld
  · rw [ha, k4 n, hms]
    have hperm : s.mnt.mounts.Perm (m :: s.mnt.mounts.filter fun x => x.id != m.id) := by
      obtain ⟨l, l', hl⟩ := List.append_of_mem hm
      rw [hl, List.map_append, List.map_cons, List.nodup_append, List.nodup_cons] at k1
      obtain ⟨-, ⟨h1, -⟩, h2⟩ := k1
      have hfl : l.filter (fun x => x.id != m.id) = l :=
        List.filter_eq_self.mpr fun p hp => by simpa using h2 _ (List.mem_map_of_mem hp) _ (List.mem_cons_self ..)
      have hfl' : l'.filter (fun x => x.id != m.id) = l' :=
        List.filter_eq_self.mpr fun p hp => by simpa using fun e => h1 (List.mem_map.mpr ⟨p, hp, e⟩)
      rw [hl, List.filter_append, List.filter_cons_of_neg (by simp), hfl, hfl']
      exact List.perm_middle
    rw [(hperm.filter _).length_eq, List.filter_cons]
    by_cases hn : m.account = n
    · simp [hn]
    · simp [hn, Ne.symm hn]

/-- A record that holds no drive is priced, spooled and leaves the table. -/
theorem account_kept {m : MountRec} (h : Kept a s) (hm : s.mount m.id = some m) (hh : m.driveHeld = false) :
    Kept a (accountFor m (dropMount m.id s)) := by
  obtain ⟨hmem, -⟩ := mount_spec hm
  have hlen : (s.mnt.mounts.filter fun x => x.id != m.id).length + 1 ≤ s.mnt.mounts.length :=
    List.length_filter_lt_length_iff_exists.mpr ⟨m, hmem, by simp⟩
  refine evalSpool_kept (h.trans ⟨⟨rfl, rfl, rfl⟩, fun k => ?_, fun k => ?_, fun _ k => k, fun k => ?_, fun k => ?_,
    fun k => k.congr rfl rfl rfl, fun k => k⟩)
  · rw [placesFit_iff] at *
    obtain ⟨⟨k1, k2, k3, k4, k5, k6⟩, k7⟩ := k
    exact ⟨⟨k1, k2, k3, k4, (List.length_filter_le ..).trans k5, k6⟩, k7⟩
  · rw [tablesOrdered_iff] at *
    obtain ⟨k1, k2, k3, k4, k5, k6⟩ := k
    exact ⟨k1, k2, k3, k4, tableWf_set k5 .., k6⟩
  · rw [spoolLaw_iff] at *
    simp only [updAccount, dropMount, List.length_append, List.length_singleton]
    omega
  · refine left_agree k hmem hh rfl rfl fun n => ?_
    rw [account_of_tableSet (s := s) (n := m.account) (x := (s.account m.account).closed m.outcome
      (min (exactCharge s.settings m) Config.topCharge) m.operatorActions) rfl]
    by_cases hn : n = m.account
    · simp [hn, Account.closed]
    · simp [hn]

/-! ### Closure (R110) -/

theorem clearEscalated_mnt (n : Nat) : (clearEscalated n s).mnt = s.mnt := by rw [clearEscalated_eq]

theorem grantCell_mnt (i : Nat) (w : Holder) : (grantCell i w s).mnt = s.mnt := by cases w <;> rfl

theorem freeCell_mnt (i : Nat) : (freeCell i s).mnt = s.mnt := by
  unfold freeCell
  split
  · rfl
  · rw [grantCell_mnt]

theorem endPrompt_mnt (n : Nat) : (endPrompt n s).mnt = s.mnt := by
  unfold endPrompt
  split
  · dsimp only
    split
    · rw [freeCell_mnt]; exact clearEscalated_mnt n
    · exact clearEscalated_mnt n
  · rfl

theorem withdrawFetch_mnt (id : ReqId) : (withdrawFetch id s).mnt = s.mnt := by
  unfold withdrawFetch
  dsimp only
  split
  · split
    · rw [endPrompt_mnt]
    · rfl
  · rfl

theorem withdrawRing_mnt (id : ReqId) : (withdrawRing id s).mnt = s.mnt := by
  unfold withdrawRing
  split
  · split
    · rw [endPrompt_mnt]
    · rfl
  · rfl

theorem dropSourcing_kept {id : ReqId} (h : Kept a s) : Kept a (dropSourcing id s) := h.seqFrame _ rfl rfl rfl

theorem closeRecord_kept {id : ReqId} (h : Kept a s) : Kept a (closeRecord id s) := by
  have hk : Kept a (withdrawRing id (withdrawFetch id (dropSourcing id (releaseDrive id s)))) :=
    withdrawRing_kept (withdrawFetch_kept (dropSourcing_kept (releaseDrive_kept h)))
  unfold closeRecord
  dsimp only
  split
  · next m hm =>
    have hmnt : (withdrawRing id (withdrawFetch id (dropSourcing id (releaseDrive id s)))).mnt = (releaseDrive id s).mnt := by
      rw [withdrawRing_mnt, withdrawFetch_mnt]; rfl
    obtain ⟨-, rfl⟩ := mount_spec hm
    refine account_kept hk hm (releaseDrive_mount (s := s) (id := m.id) ?_)
    simpa only [State.mount, hmnt] using hm
  · exact hk

end

end Sys2Proof.Machine


/-! Requests and mount records: what the blocks of chapters 3 to 5 do keeps the invariants. -/

namespace Sys2Proof.Machine

-- One proof at a time: proofs that wait for each other on threads of their own would reserve more stack than the check allows.
set_option Elab.async false

section
variable {a s : State}

/-! ### The originator (chapter 3) -/

theorem bidsFit_iff (o : OriginRec) : o.bidsFit = true ↔ (o.bids.map (·.station)).Nodup ∧ ∀ b ∈ o.bids, b.station ≤ 15 := by
  simp [OriginRec.bidsFit]

/-- A bid list that has lost entries still fits. -/
theorem bidsFit_sublist {o x : OriginRec} (h : x.bids.Sublist o.bids) (k : o.bidsFit = true) : x.bidsFit = true := by
  rw [bidsFit_iff] at *
  exact ⟨k.1.sublist (h.map _), fun b hb => k.2 b (h.subset hb)⟩

theorem endRequest_kept {id : ReqId} {e : Ending} (h : Kept a s) : Kept a (endRequest id e s) := by
  unfold endRequest
  split
  · exact postNeg_kept (updOrigin_kept h fun _ _ k => bidsFit_sublist (List.nil_sublist _) k)
  · exact h

theorem endUnserved_kept {id : ReqId} (h : Kept a s) : Kept a (endUnserved id s) := by
  unfold endUnserved
  split
  · exact postOpen_kept (endRequest_kept h)
  · exact h

theorem sendLocate_kept {id : ReqId} (h : Kept a s) : Kept a (sendLocate id s) := by
  unfold sendLocate
  split
  · exact offerAll_kept (updOrigin_kept h)
  · exact h

theorem startLocating_kept {id : ReqId} (h : Kept a s) : Kept a (startLocating id s) := sendLocate_kept (updOrigin_kept h)

theorem staleRetry_kept {id : ReqId} (h : Kept a s) : Kept a (staleRetry id s) := by
  unfold staleRetry
  split
  · exact startLocating_kept (updOrigin_kept (forgetVolser_kept h))
  · exact h

theorem onResult_kept {src g : Nat} {id : ReqId} {k : ResultKind} (h : Kept a s) : Kept a (onResult src id k g s) := by
  unfold onResult
  split
  · split
    · split
      · split
        · exact staleRetry_kept h
        · exact endRequest_kept h
      · refine endRequest_kept ?_
        split
        · exact forgetVolser_kept h
        · exact h
      all_goals exact h
    · exact h
  · exact h

/-! ### Turning back (section 5.6) -/

theorem waitOffer_kept {w : WaitingOffer} (h : Kept a s) : Kept a (waitOffer w s) := h.seqFrame _ rfl rfl rfl

theorem holdAnswer_kept {p : Option Nat} {x : Answered} (h : Kept a s) : Kept a (holdAnswer p x s) := by
  unfold holdAnswer
  split
  · exact updPrompt_kept h
  · exact h

theorem orderRoom_lt (h : s.orderRoom = true) : s.seq.queue.length < 12 := by
  simp only [State.orderRoom, Bool.and_eq_true, decide_eq_true_eq] at h
  exact h.1

theorem offerOrder_kept {o : ArmOrder} {p : Option Nat} {x : Answered} (h : Kept a s) : Kept a (offerOrder o p x s) := by
  unfold offerOrder
  split
  · next hr => exact takeOrder_kept h (orderRoom_lt hr)
  · exact waitOffer_kept (holdAnswer_kept h)

theorem ringReturn_kept {id : ReqId} {p : Prompt} (h : Kept a s) : Kept a (ringReturn id p s) := by
  have hk : Kept a (releaseDrive id (updMount id (fun m => { m with turningBack := true, stage := .returning })
      (clearEscalated p.number s))) := releaseDrive_kept (updMount_kept (clearEscalated_kept h))
  unfold ringReturn
  dsimp only
  split
  · exact offerOrder_kept hk
  · exact hk

theorem turnLeg_kept {id : ReqId} (h : Kept a s) : Kept a (turnLeg id s) := by
  have home : Kept a (releaseDrive id (updMount id (fun m => { m with stage := .returning }) s)) := releaseDrive_kept (updMount_kept h)
  unfold turnLeg
  dsimp only
  split
  · split
    · split
      exacts [h, home, home, home]
    · split
      exacts [home, redirect_kept home]
  · exact home

theorem turnWaiting_kept {id : ReqId} (h : Kept a s) : Kept a (turnWaiting id s) := by
  unfold turnWaiting
  split
  · exact releaseDrive_kept (h.seqFrame _ rfl rfl rfl)
  · exact h

theorem turnBack_kept {id : ReqId} (h : Kept a s) : Kept a (turnBack id s) := by
  have hk : Kept a (updMount id (fun m => { m with turningBack := true }) s) := updMount_kept h
  unfold turnBack
  split
  · split
    · exact h
    · dsimp only
      split
      · exact h
      · exact h
      · exact h
      · split
        · exact turnWaiting_kept hk
        · split
          · split
            exacts [closeRecord_kept hk, releaseDrive_kept hk]
          · exact closeRecord_kept hk
      · split
        exacts [turnWaiting_kept hk, turnLeg_kept hk]
      · split
        · exact turnWaiting_kept hk
        · split
          exacts [ringReturn_kept hk, turnLeg_kept hk]
  · exact h

theorem noteFailure_kept {id : ReqId} {r : FailReason} (h : Kept a s) : Kept a (noteFailure id r s) := updMount_kept h

theorem closeRevoked_kept {id : ReqId} (h : Kept a s) : Kept a (closeRevoked id s) := closeRecord_kept (noteFailure_kept h)

theorem onRevoke_kept {src : Nat} {id : ReqId} (h : Kept a s) : Kept a (onRevoke src id s) := by
  have hk : Kept a (dropBid id s) := dropBid_kept h
  unfold onRevoke
  dsimp only
  split
  · split
    · exact hk
    · split
      exacts [closeRevoked_kept hk, turnBack_kept (noteFailure_kept (updMount_kept hk))]
  · exact hk

/-! ### Offers, bids and awards -/

theorem recordBid_kept {id : ReqId} (h : Kept a s) (hr : s.bidRoom id = true) : Kept a (recordBid id s) := by
  refine h.neg _ (.inr (le_refl _)) (fun k => ?_) fun _ k => k
  simp only [State.bidRoom, Bool.or_eq_true, decide_eq_true_eq, List.any_eq_true] at hr
  simp only [List.length_append, List.length_singleton]
  obtain hr | ⟨b, hb, he⟩ := hr
  · have := List.length_filter_le (fun b : BidRec => b.id != id) s.neg.bids
    change s.neg.bids.length < 32 at hr
    omega
  · have : (s.neg.bids.filter fun b => b.id != id).length + 1 ≤ s.neg.bids.length :=
      List.length_filter_lt_length_iff_exists.mpr ⟨b, hb, by simp [he]⟩
    omega

theorem onBid_kept {src e d : Nat} {id : ReqId} (h : Kept a s) (hs : s.addr ≤ 15 → src ≤ 15) : Kept a (onBid src id e d s) := by
  unfold onBid
  split
  · split
    · refine updOrigin_kept h fun k o ho => ?_
      rw [bidsFit_iff] at *
      have hp := insertBid_perm ⟨src, e, d⟩ (o.bids.filter fun b => b.station != src)
      refine ⟨(hp.map _).nodup_iff.mpr ?_, fun b hb => ?_⟩
      · rw [List.map_cons, List.nodup_cons]
        refine ⟨fun hm => ?_, ho.1.sublist (List.filter_sublist.map _)⟩
        obtain ⟨b, hb, he⟩ := List.mem_map.mp hm
        simp only [List.mem_filter, bne_iff_ne] at hb
        exact hb.2 he
      · obtain rfl | hb := List.mem_cons.mp (hp.subset hb)
        exacts [hs k, ho.2 b (List.mem_of_mem_filter hb)]
    · exact h
  · exact h

theorem sendBid_kept {e d : Nat} {id : ReqId} (h : Kept a s) : Kept a (sendBid id e d s) := by
  unfold sendBid
  split
  exacts [onBid_kept h fun k => k, offerTo_kept h]

theorem qualifies_bidRoom {id : ReqId} {spec : DriveSpec} {loc : ReelLocation} {d : Nat} (h : s.qualifies id spec loc = some d) :
    s.bidRoom id = true := by
  unfold State.qualifies at h
  split at h
  · next hq => exact hq.2.2.2.2
  · cases h

theorem bidFor_kept {id : ReqId} {w : Bool} {spec : DriveSpec} {loc : ReelLocation} (h : Kept a s) : Kept a (bidFor id w spec loc s) := by
  unfold bidFor
  split
  · next hq => exact sendBid_kept (recordBid_kept h (qualifies_bidRoom hq))
  · exact h

theorem offerRound_kept {id : ReqId} {n : Nat} (h : Kept a s) : Kept a (offerRound id n s) := by
  have hk : Kept a (updOrigin id (fun o => { o with
      state := .offered, round := n, bids := [], awardsMade := 0, bidWindow := none, locateWindow := none }) s) :=
    updOrigin_kept h fun _ _ k => bidsFit_sublist (List.nil_sublist _) k
  unfold offerRound
  dsimp only
  split
  exacts [bidFor_kept (offerAll_kept hk), hk]

theorem offerAt_kept {id : ReqId} {loc : ReelLocation} (h : Kept a s) : Kept a (offerAt id loc s) := offerRound_kept (updOrigin_kept h)

theorem lookupNew_kept {id : ReqId} {v : Volser} (h : Kept a s) : Kept a (lookupNew id v s) := by
  unfold lookupNew
  split
  · split
    exacts [offerAt_kept h, endRequest_kept h]
  · split
    exacts [offerAt_kept h, startLocating_kept h]
  · exact startLocating_kept h

theorem onHolding_kept {src n p : Nat} {id : ReqId} {v : Volser} {r : Bool} {st : ReelState} (h : Kept a s) :
    Kept a (onHolding src id v n p r st s) := by
  unfold onHolding
  split
  · split
    · split
      exacts [offerAt_kept h, endRequest_kept h]
    · exact h
  · exact h

theorem beginSourcing_kept {id : ReqId} {t : RequestTerms} {d : Nat} (h : Kept a s) : Kept a (beginSourcing id t d s) := by
  unfold beginSourcing
  split
  · exact postOpen_kept h
  · split
    exacts [waitOffer_kept h, offerTo_kept h]

theorem sendRevoke_kept {x : Nat} {id : ReqId} (h : Kept a s) : Kept a (sendRevoke x id s) := by
  unfold sendRevoke
  split
  exacts [onRevoke_kept h, offerTo_kept h]

theorem takeAccept_kept {src : Nat} {id : ReqId} {f : State → State} (h : Kept a s) (hf : Kept a (f s)) :
    Kept a (takeAccept src id f s) := by
  unfold takeAccept
  split
  · split
    exacts [updOrigin_kept h, hf]
  · exact hf

theorem onAccept_kept {src : Nat} {id : ReqId} (h : Kept a s) : Kept a (onAccept src id s) := takeAccept_kept h (sendRevoke_kept h)

theorem acceptMount_kept {id : ReqId} {t : RequestTerms} {d : Nat} (h : Kept a s) (hp : s.awardRefusal id d = none) :
    Kept a (acceptMount id t d s) := by
  have hm := makeMount_kept (t := t) h hp
  have hk : Kept a (if id.station = (makeMount id t d s).addr then takeAccept (makeMount id t d s).addr id (closeRevoked id) (makeMount id t d s)
      else offerTo id.station (.accept id d) (makeMount id t d s)) := by
    split
    exacts [takeAccept_kept hm (closeRevoked_kept hm), offerTo_kept hm]
  have source {u : State} (hu : Kept a u) : Kept a (if (u.mount id).isSome then beginSourcing id t d u else u) := by
    split
    exacts [beginSourcing_kept hu, hu]
  exact source hk

theorem onAward_kept {src d : Nat} {id : ReqId} {t : RequestTerms} (h : Kept a s) : Kept a (onAward src id t d s) := by
  unfold onAward
  dsimp only
  split
  · exact offerTo_kept (dropBid_kept h)
  · next hp => exact acceptMount_kept (dropBid_kept h) hp

theorem endRound_kept {id : ReqId} (h : Kept a s) : Kept a (endRound id s) := by
  unfold endRound
  split
  · split
    exacts [offerRound_kept h, endUnserved_kept h]
  · exact h

theorem dropHead_kept {id : ReqId} (h : Kept a s) : Kept a (dropHead id s) :=
  updOrigin_kept h fun _ _ k => bidsFit_sublist (List.tail_sublist _) k

theorem awardHead_kept {n : Nat} {id : ReqId} (h : Kept a s) : Kept a (awardHead n id s) := by
  induction n generalizing s with
  | zero => exact endRound_kept h
  | succ n ih =>
    unfold awardHead
    split
    · split
      · exact endRound_kept h
      · next b _ _ =>
        have hk : Kept a (takeHead id b s) := updOrigin_kept h
        split
        · dsimp only
          split
          · split
            · exact ih (dropHead_kept (dropBid_kept hk))
            · next hp => exact acceptMount_kept (dropBid_kept hk) hp
          · exact offerTo_kept hk
        · exact endRound_kept h
    · exact h

theorem moveOn_kept {id : ReqId} (h : Kept a s) : Kept a (moveOn id s) := awardHead_kept (dropHead_kept h)

theorem onDecline_kept {src : Nat} {id : ReqId} (h : Kept a s) : Kept a (onDecline src id s) := by
  unfold onDecline
  split
  · split
    exacts [moveOn_kept h, h]
  · exact h

theorem onProgress_kept {src : Nat} {id : ReqId} (h : Kept a s) : Kept a (onProgress src id s) := by
  unfold onProgress
  split
  · split
    · exact updOrigin_kept h fun _ o k => by split <;> exact k
    · exact sendRevoke_kept h
  · exact sendRevoke_kept h

theorem originRestart_kept {x : Nat} {id : ReqId} (h : Kept a s) : Kept a (originRestart x id s) := by
  unfold originRestart
  split
  · split
    · split
      exacts [moveOn_kept h, endRequest_kept h, endRequest_kept h, h, h]
    · exact h
  · exact h

/-- What each step of a walk keeps, the walk keeps. -/
theorem foldl_kept {α : Type} {f : State → α → State} (hf : ∀ t x, Kept a t → Kept a (f t x)) (l : List α) (h : Kept a s) :
    Kept a (l.foldl f s) := by
  induction l generalizing s with
  | nil => exact h
  | cons x l ih => exact ih (hf s x h)

theorem originsRestart_kept {x : Nat} (h : Kept a s) : Kept a (originsRestart x s) := foldl_kept (fun _ _ => originRestart_kept) _ h

theorem locateExpired_kept {id : ReqId} (h : Kept a s) : Kept a (locateExpired id s) := by
  unfold locateExpired
  split
  · split
    · split
      exacts [sendLocate_kept h, offerAt_kept h]
    · exact h
  · exact h

theorem bidWindowExpired_kept {id : ReqId} (h : Kept a s) : Kept a (bidWindowExpired id s) := by
  unfold bidWindowExpired
  split
  · split
    exacts [awardHead_kept h, h]
  · exact h

theorem awardAnswerExpired_kept {id : ReqId} (h : Kept a s) : Kept a (awardAnswerExpired id s) := by
  unfold awardAnswerExpired
  split
  · split
    exacts [moveOn_kept h, h]
  · exact h

theorem mountWatchExpired_kept {id : ReqId} (h : Kept a s) : Kept a (mountWatchExpired id s) := by
  unfold mountWatchExpired
  split
  · split
    exacts [endRequest_kept h, h]
  · exact h

/-! ### The Mount Unit (chapter 5) -/

theorem sendResult_kept {x g : Nat} {id : ReqId} {k : ResultKind} (h : Kept a s) : Kept a (sendResult x id k g s) := by
  unfold sendResult
  split
  exacts [onResult_kept h, offerTo_kept h]

theorem sendProgress_kept {x : Nat} {id : ReqId} (h : Kept a s) : Kept a (sendProgress x id s) := by
  unfold sendProgress
  split
  exacts [onProgress_kept h, offerTo_kept h]

theorem failRecord_kept {id : ReqId} {r : FailReason} (h : Kept a s) : Kept a (failRecord id r s) := by
  have hk : Kept a (noteFailure id r s) := noteFailure_kept h
  unfold failRecord
  dsimp only
  split
  · split
    exacts [sendResult_kept (updMount_kept hk), hk]
  · exact hk

theorem failAndClose_kept {id : ReqId} {r : FailReason} (h : Kept a s) : Kept a (failAndClose id r s) :=
  closeRecord_kept (failRecord_kept h)

theorem enterStage_kept {id : ReqId} {st : Stage} (h : Kept a s) : Kept a (enterStage id st s) := by
  unfold enterStage
  split
  · dsimp only
    split
    case h_1 | h_2 | h_3 =>
      split
      exacts [sendProgress_kept (updMount_kept h), updMount_kept h]
    all_goals exact updMount_kept h
  · exact h

/-- An offer is taken where the order queue has a place. -/
theorem takeOffer_kept {o : ArmOrder} {p : Option Nat} {st : Option Stage} (h : Kept a s) (hr : s.seq.queue.length < 12) :
    Kept a (takeOffer o p st s) := by
  have hk : Kept a (if o.purpose = .audit then { takeOrder o p s with seq := { (takeOrder o p s).seq with
      audit := { (takeOrder o p s).seq.audit with next := (takeOrder o p s).seq.audit.next + 1 } } } else takeOrder o p s) := by
    split
    exacts [(takeOrder_kept h hr).seqFrame _ rfl rfl rfl, takeOrder_kept h hr]
  unfold takeOffer
  dsimp only
  split
  exacts [enterStage_kept hk, hk]

theorem offerStaged_kept {o : ArmOrder} {p : Option Nat} {st : Option Stage} {x : Answered} (h : Kept a s) :
    Kept a (offerStaged o p st x s) := by
  unfold offerStaged
  split
  · next hr => exact takeOffer_kept h (orderRoom_lt hr)
  · exact waitOffer_kept (holdAnswer_kept h)

theorem takeOut_seq (n : Nat) (v : Volser) (id : ReqId) : (takeOut n v id s).seq = s.seq := by
  unfold takeOut
  split <;> rfl

theorem sourceLocal_kept {id : ReqId} (h : Kept a s) (hr : s.seq.queue.length < 12) : Kept a (sourceLocal id s) := by
  unfold sourceLocal
  split
  · split
    · exact failAndClose_kept h
    · next slot _ _ =>
      have hk : Kept a (updMount id (fun m => { m with homeSlot := slot }) s) := updMount_kept h
      dsimp only
      split
      · refine takeOffer_kept (updMount_kept (takeOut_kept hk)) ?_
        rw [updMount_seq, takeOut_seq]
        exact hr
      · exact failAndClose_kept hk
      · exact failAndClose_kept hk
  · exact h

theorem queuePickBack_kept {id : ReqId} (h : Kept a s) : Kept a (queuePickBack id s) := by
  unfold queuePickBack
  split
  exacts [offerOrder_kept h, h]

theorem startLoading_kept {d : Nat} {m : MountRec} (h : Kept a s) : Kept a (startLoading d m s) :=
  enterStage_kept (updMount_kept (sendLoad_kept (updDrive_kept h (hs := fun _ _ _ _ => by simp))))

theorem placedOnDrive_kept {d : Nat} {id : ReqId} (h : Kept a s) : Kept a (placedOnDrive d id s).1 := by
  unfold placedOnDrive
  split
  · next m r hm hr =>
    split
    · exact h
    · next hmd =>
      simp only [ne_eq, not_not] at hmd
      split
      · exact updMount_kept (updDrive_kept h)
      · split
        · split
          exacts [startEmptying_kept h, startLoading_kept h]
        · split
          · next hn => exact retakeEmptying_kept h hr hm hmd hn.1
          · next hoff =>
            split
            · next hn =>
              refine takeLoose_kept h hr hm hmd hn fun e => hoff ⟨hn, ?_⟩
              rw [e]
              decide
            · exact updMount_kept (updDrive_kept h)
  · exact h

theorem driveReady_kept {d : Nat} {id : ReqId} (h : Kept a s) : Kept a (driveReady d id s) := by
  have hk : Kept a (updDrive d (fun r => { r with state := .mounted }) s) := updDrive_kept h (hs := fun _ _ _ _ => by simp)
  unfold driveReady
  dsimp only
  split
  · split
    exacts [sendResult_kept (updMount_kept (updMount_kept hk)), updMount_kept hk]
  · exact hk

theorem loadLost_kept {d : Nat} {id : ReqId} (h : Kept a s) : Kept a (loadLost d id s) :=
  queuePickBack_kept (failRecord_kept (startEmptying_kept h))

theorem driveProtocol_kept {d : Nat} {e : DriveEvent} (h : Kept a s) : Kept a (driveProtocol d e s) := postMount_kept h

theorem onReady_kept {d : Nat} (h : Kept a s) : Kept a (onReady d s) := by
  unfold onReady
  split
  exacts [driveReady_kept h, driveProtocol_kept h]

theorem onLoadFailed_kept {d : Nat} (h : Kept a s) : Kept a (onLoadFailed d s) := by
  unfold onLoadFailed
  split
  exacts [loadLost_kept h, driveProtocol_kept h]

theorem onUnloaded_kept {d : Nat} {c : Counts} (h : Kept a s) : Kept a (onUnloaded d c s) := by
  unfold onUnloaded
  split
  · exact queuePickBack_kept (startEmptying_kept (updMount_kept h))
  · exact updMount_kept (updDrive_kept h)
  · exact driveProtocol_kept h

theorem dropPickBack_kept {d : Nat} (h : Kept a s) : Kept a (dropPickBack d s) := by
  unfold dropPickBack
  dsimp only
  split
  · exact removeOrder_kept (h.seqFrame _ rfl rfl rfl)
  · exact h.seqFrame _ rfl rfl rfl

theorem recordOffline_kept {id : ReqId} (h : Kept a s) : Kept a (recordOffline id s) := by
  unfold recordOffline
  split
  · split
    case h_1 | h_2 | h_3 => exact turnBack_kept (failRecord_kept h)
    case h_4 => exact failRecord_kept (updMount_kept h)
    case h_5 => exact updMount_kept h
    case h_6 => exact h
  · exact h

theorem onOffline_kept {d : Nat} (h : Kept a s) : Kept a (onOffline d s) := by
  unfold onOffline
  split
  · split
    · exact driveProtocol_kept h
    · have hk : Kept a (updDrive d (fun r => { r with state := .offline }) (dropPickBack d s)) :=
        updDrive_kept (dropPickBack_kept h) (hs := fun _ _ _ _ => by simp)
      dsimp only
      split
      exacts [recordOffline_kept hk, hk]
  · exact driveProtocol_kept h

theorem onlineLoose_kept {d : Nat} {id : ReqId} (h : Kept a s) : Kept a (onlineLoose d id s) := by
  unfold onlineLoose
  dsimp only
  split
  exacts [startEmptying_kept h, queuePickBack_kept (startEmptying_kept h)]

theorem onOnline_kept {d : Nat} (h : Kept a s) : Kept a (onOnline d s) := by
  unfold onOnline
  split
  · next r hr =>
    split
    · next hoff =>
      have hne : r.state ≠ .free := by rw [hoff]; decide
      split
      · next id _ hid => exact h.mnt (length_updWhere ..) fun k => giveUp_agree k hr hid rfl rfl rfl
      · next hid =>
        refine updDrive_kept h (hs := fun x hx hne' _ => ?_)
        rw [hr] at hx
        cases hx
        exact absurd hid hne'
      · split
        · next m hm =>
          have hleft := List.find?_some hm
          simp only [Bool.and_eq_true, decide_eq_true_eq] at hleft
          exact onlineLoose_kept (reclaimDrive_kept h hr hne (List.mem_of_find?_eq_some hm) hleft.2)
        · exact onlineLoose_kept h
        · exact updDrive_kept h (hs := fun _ _ _ _ => by simp)
      · exact updDrive_kept h (hs := fun _ _ _ _ => by simp)
    · exact driveProtocol_kept h
  · exact driveProtocol_kept h

theorem loadWaitExpired_kept {id : ReqId} (h : Kept a s) : Kept a (loadWaitExpired id s) := by
  unfold loadWaitExpired
  split
  · split
    exacts [loadLost_kept h, h]
  · exact h

theorem arrivalExpired_kept {id : ReqId} (h : Kept a s) : Kept a (arrivalExpired id s) := by
  unfold arrivalExpired
  split
  · split
    exacts [failAndClose_kept h, h]
  · exact h

theorem onCancel_kept {src : Nat} {id : ReqId} (h : Kept a s) : Kept a (onCancel src id s) := by
  have hk : Kept a (updMount id (fun m => { m with cancelPending := true }) s) := updMount_kept h
  unfold onCancel
  split
  · split
    · exact h
    · split
      · split
        exacts [h, sendResult_kept h]
      · split
        · exact h
        · dsimp only
          split
          exacts [turnBack_kept (sendResult_kept (updMount_kept hk)), turnBack_kept hk]
  · exact h

theorem sendCancel_kept {x : Nat} {id : ReqId} (h : Kept a s) : Kept a (sendCancel x id s) := by
  unfold sendCancel
  split
  exacts [onCancel_kept h, offerTo_kept h]

theorem onFetch_kept {src n x c : Nat} {id : ReqId} {v : Volser} (h : Kept a s) : Kept a (onFetch src id v n x c s) := by
  unfold onFetch
  split
  · exact offerTo_kept h
  · split
    · exact offerStaged_kept (takeOut_kept h)
    · split
      exacts [h, offerTo_kept h]
    · exact offerTo_kept h

theorem holderFailed_kept {o : ArmOrder} {r : NotHereReason} (h : Kept a s) : Kept a (holderFailed o r s) := by
  unfold holderFailed
  split
  · split
    exacts [offerTo_kept h, h]
  · exact h

theorem onNotHere_kept {src : Nat} {id : ReqId} {v : Volser} {r : NotHereReason} (h : Kept a s) : Kept a (onNotHere src id v r s) := by
  have hk : Kept a (forgetVolser v s) := forgetVolser_kept h
  unfold onNotHere
  dsimp only
  split
  · split
    exacts [failAndClose_kept hk, hk]
  · exact hk

theorem fetchUndelivered_kept {id : ReqId} (h : Kept a s) : Kept a (fetchUndelivered id s) := by
  unfold fetchUndelivered
  split
  · split
    exacts [failAndClose_kept h, h]
  · exact h

theorem recordMisfiled_kept {id : ReqId} (h : Kept a s) : Kept a (recordMisfiled id s) := updMount_kept (failRecord_kept h)

theorem driveOccupied_kept {d : Nat} {id : ReqId} (h : Kept a s) : Kept a (driveOccupied d id s) :=
  turnLeg_kept (updMount_kept (driveProtocol_kept (failRecord_kept h)))

theorem ringPlaced_kept {id : ReqId} {i : Nat} (h : Kept a s) : Kept a (ringPlaced id i s) := by
  unfold ringPlaced
  split
  · refine postCellReel_kept ?_ rfl
    split
    exacts [h, enterStage_kept h]
  · exact h

theorem ringTurned_kept {id : ReqId} (h : Kept a s) : Kept a (ringTurned id s) := by
  unfold ringTurned
  split
  · split
    exacts [ringReturn_kept h, h]
  · exact h

end

end Sys2Proof.Machine


/-! Lanes, wear, and what comes back from the arm: these keep the invariants. -/

namespace Sys2Proof.Machine

-- One proof at a time: proofs that wait for each other on threads of their own would reserve more stack than the check allows.
set_option Elab.async false

section
variable {a s : State}

theorem Kept.ite {t : State} {c : Prop} [Decidable c] (h : Kept a s) (k : Kept a t) : Kept a (if c then s else t) := by
  split
  exacts [h, k]

/-! ### Lanes (chapter 7) -/

theorem takeLanePick_kept {d : Side} {o : ArmOrder} {st : Option Stage} (h : Kept a s) (hr : s.seq.queue.length < 12) :
    Kept a (takeLanePick d o st s) := takeOffer_kept (updSide_kept h) (by rwa [updSide_seq])

theorem takeLaneHead_kept {d : Side} (h : Kept a s) (hr : s.seq.queue.length < 12) : Kept a (takeLaneHead d s) := by
  unfold takeLaneHead
  split
  · exact h
  · split
    · next r _ _ _ m _ =>
      have hk : Kept a (updMount (m.arrived r).id (fun m => m.arrived r) s) := updMount_kept h
      exact (takeLanePick_kept hk hr).ite (takeLanePick_kept hk hr)
    all_goals exact takeLanePick_kept h hr

theorem queueHead_kept {d : Side} (h : Kept a s) : Kept a (queueHead d s) := by
  unfold queueHead
  split
  · exact h
  · split
    · next hr => exact takeLaneHead_kept h (orderRoom_lt hr)
    · exact waitOffer_kept h

theorem returnCredit_kept {d : Side} (h : Kept a s) : Kept a (returnCredit d s) := by
  unfold returnCredit
  split
  exacts [offerTo_kept h, updSide_kept h]

theorem headGone_kept {d : Side} (h : Kept a s) : Kept a (headGone d s) :=
  returnCredit_kept (updSide_kept h fun k => ⟨(List.tail_sublist _).length_le.trans k.1, k.2⟩)

theorem laneEmpty_kept {d : Side} {x : Bool} (h : Kept a s) : Kept a (laneEmpty d x s) := by
  unfold laneEmpty
  split
  exacts [headGone_kept (postLane_kept h), headGone_kept h]

theorem keepDeposit_kept {d : Side} {r : Routing} (h : Kept a s) : Kept a (keepDeposit d r s) := by
  unfold keepDeposit
  split
  · exact updSide_kept h fun k => ⟨k.1, by simp⟩
  · next old rest hu =>
    split
    · next hr =>
      refine updSide_kept h fun k => ⟨k.1, ?_⟩
      simp only [Config.lanePlaces] at hr
      simp only [List.length_append, List.length_cons, List.length_nil]
      omega
    · refine postLane_kept (updSide_kept h fun k => ⟨k.1, ?_⟩)
      rw [hu] at k
      simpa using k.2

theorem depositUndelivered_kept {x : Nat} {r : Routing} (h : Kept a s) : Kept a (depositUndelivered x r s) := by
  unfold depositUndelivered
  split
  exacts [keepDeposit_kept h, h]

theorem creditUndelivered_kept {x n : Nat} (h : Kept a s) : Kept a (creditUndelivered x n s) := by
  unfold creditUndelivered
  split
  exacts [updSide_kept h, h]

theorem clearRetry_kept {d : Side} (h : Kept a s) : Kept a (clearRetry d s) := by
  have hm : (clearRetry d s).marks = s.marks := by
    have ho : (clearRetry d s).orders = s.orders.map fun o => if o.dst = .mouth d then { o with laneRetry := false } else o := by
      cases h : s.seq.inArm <;> simp [State.orders, clearRetry, h]
    rw [State.marks, ho, List.map_map]
    refine List.map_congr_left fun o _ => ?_
    simp only [Function.comp_apply]
    split <;> rfl
  refine h.seq (.inr (List.length_map ..).le) fun k => ⟨k.claims.congr hm (fun e => ?_) fun _ => rfl, k.fits⟩
  have hi := k.claims.idle e
  simp [clearRetry, hi]

theorem credited_kept {d : Side} {n : Nat} (h : Kept a s) : Kept a (updSide d (fun r => r.credited n) s) := by
  have same (r : SideRec) : (r.credited n).inbound = r.inbound ∧ (r.credited n).undelivered = r.undelivered
      ∧ (r.credited n).claims = r.claims := by unfold SideRec.credited; split <;> exact ⟨rfl, rfl, rfl⟩
  refine updSide_kept h (fun k => ?_) (fun k => ?_) fun _ => ?_
  · rw [(same _).1, (same _).2.1]; exact k
  · obtain ⟨f1, f2, f3, f4, f5⟩ := k.fits d
    have hle : (s.side d).available + n ≤ (s.side d).available + n := le_refl _
    unfold SideRec.credited
    split
    case h_1 ho | h_2 ho | h_3 ho =>
      refine ⟨?_, f2, fun e => ?_, f4, f5⟩
      · simp only [SideRec.reserved]; omega
      · rw [ho] at e; cases e
    all_goals exact ⟨f1, f2, f3, f4, f5⟩
  · rw [(same _).2.2]

theorem onCredit_kept {src n : Nat} {l : Side} (h : Kept a s) : Kept a (onCredit src l n s) := by
  unfold onCredit
  split
  · split
    exacts [grantCredits_kept (clearRetry_kept (credited_kept h)), h]
  · exact h

theorem appendInbound_kept {d : Side} {r : Routing} (h : Kept a s) : Kept a (appendInbound d r s) := by
  unfold appendInbound
  dsimp only
  split
  · next hr =>
    have hk : Kept a (updSide d (fun x => { x with inbound := x.inbound ++ [r] }) s) := updSide_kept h fun k => ⟨by
      simp only [Config.lanePlaces] at hr
      simp only [List.length_append, List.length_singleton]
      omega, k.2⟩
    split
    exacts [hk, postLane_kept hk]
  · exact postLane_kept h

theorem onDeposit_kept {src : Nat} {r : Routing} (h : Kept a s) : Kept a (onDeposit src r s) := by
  unfold onDeposit
  split
  · dsimp only
    split
    exacts [queueHead_kept (appendInbound_kept h), appendInbound_kept h]
  · exact h

theorem laneDown_kept {d : Side} (h : Kept a s) : Kept a (laneDown d s) := by
  refine updSide_kept h (fun k => ?_) (fun k => ?_) fun _ => ?_
  · split <;> exact k
  · obtain ⟨f1, f2, f3, f4, f5⟩ := k.fits d
    split
    exacts [⟨f1, f2, f3, f4, f5⟩, ⟨f1, f2, nofun, nofun, f5⟩]
  · split <;> exact .refl _

/-- A side leaves DOWN. -/
theorem reopened_kept {d : Side} (h : Kept a s) : Kept a (updSide d SideRec.reopened s) := by
  refine updSide_kept h (fun k => ?_) (fun k => ?_) fun _ => ?_
  · unfold SideRec.reopened; split <;> exact k
  · obtain ⟨f1, f2, f3, f4, f5⟩ := k.fits d
    unfold SideRec.reopened
    split
    · exact ⟨by dsimp only; omega, f2, fun _ => rfl, nofun, f5⟩
    · refine ⟨f1, f2, fun e => ?_, fun e => ?_, f5⟩
      · simp only at e; split at e <;> cases e
      · simp only at e; split at e <;> cases e
  · unfold SideRec.reopened; split <;> exact .refl _

theorem resendDeposits_kept {d : Side} (h : Kept a s) : Kept a (resendDeposits d s) :=
  foldl_kept (f := fun t r => offerTo (t.neighbour d) (.deposit r) t) (fun _ _ => offerTo_kept) (s.side d).undelivered
    (updSide_kept h fun k => ⟨k.1, Nat.zero_le _⟩)

theorem reportCredit_kept {d : Side} (h : Kept a s) : Kept a (reportCredit d s) := by
  unfold reportCredit
  split
  exacts [h, offerTo_kept (updSide_kept h)]

theorem laneReturn_kept {d : Side} (h : Kept a s) : Kept a (laneReturn d s) := by
  unfold laneReturn
  split
  exacts [grantCredits_kept (reportCredit_kept (resendDeposits_kept (reopened_kept h))), h]

theorem laneRestart_kept {d : Side} {x : HelloFields} (h : Kept a s) (hc : s.host.state ≠ .config) : Kept a (laneRestart d x s) := by
  have hu : Kept s (updSide d (fun r => { r with outbound := .agreeing, available := 0, unreported := 0 }) s) :=
    updSide_kept (.refl s) id fun k => by
      obtain ⟨f1, f2, f3, f4, f5⟩ := k.fits d
      exact ⟨by dsimp only; omega, f2, fun _ => rfl, nofun, f5⟩
  have hk := foldl_kept (f := fun t r => offerResend (t.neighbour d) r t) (fun _ _ => offerResend_kept) (s.side d).undelivered hu
  exact applyHello_kept (h.trans hk) fun e => hc (hk.config e)

theorem laneHello_kept {x : Nat} {f : HelloFields} (h : Kept a s) (hc : s.host.state ≠ .config) : Kept a (laneHello x f s) := by
  unfold laneHello
  split
  exacts [applyHello_kept h hc, h]

/-! ### Wear (chapter 9) -/

theorem testWindow_kept {n : Nat} {v : Volser} (h : Kept a s) : Kept a (testWindow n v s) := by
  unfold testWindow
  dsimp only
  split
  · exact h
  · split
    exacts [postWear_kept (setWear_kept h), setWear_kept h]

theorem wearPass_kept {n : Nat} {v : Volser} {c : Counts} (h : Kept a s) : Kept a (wearPass n v c s) := by
  unfold wearPass
  dsimp only
  split
  exacts [setWear_kept (testWindow_kept h), testWindow_kept (setWear_kept (testWindow_kept h))]

theorem startRetirement_kept {n : Nat} (h : Kept a s) : Kept a (startRetirement n s) := by
  unfold startRetirement
  split
  · next he => exact offerStaged_kept (postWear_kept (setWear_kept (setEntry_kept h (retireGranted_entry he).1 rfl)))
  · exact h

theorem takePass_kept {x : Handover} (h : Kept a s) : Kept a (takePass x s) := by
  have finish {t : State} (ht : Kept a t) (w : WearRec) : Kept a (if ((setWear x.slot w t).wearOf x.slot).stage = .due then
      startRetirement x.slot (setWear x.slot w t) else setWear x.slot w t) := by
    split
    exacts [startRetirement_kept (setWear_kept ht), setWear_kept ht]
  unfold takePass
  dsimp only
  cases x.counts with
  | none => exact finish h _
  | some c => exact finish (wearPass_kept h) _

theorem takeHandover_kept {x : Handover} (h : Kept a s) : Kept a (takeHandover x s) := by
  unfold takeHandover
  split
  exacts [takePass_kept h, h]

theorem wearStep_kept (h : Kept a s) : Kept a (wearStep s) := by
  unfold wearStep
  split
  · exact takeHandover_kept (h.wear _ id)
  · exact h

theorem abandonRetirement_kept {n : Nat} {v : Volser} {e : WearEvent} (h : Kept a s) : Kept a (abandonRetirement n v e s) :=
  postWear_kept (setWear_kept h)

theorem retirePlaced_kept {n i : Nat} {v : Volser} (h : Kept a s) : Kept a (retirePlaced n v i s) :=
  setWear_kept (postCellReel_kept h rfl)

theorem retireEnded_kept {n : Nat} {v : Volser} (h : Kept a s) : Kept a (retireEnded n v s) := setWear_kept (postWear_kept h)

/-! ### The audit (section 6.6) -/

theorem updAudit_kept {f : AuditCursor → AuditCursor} (h : Kept a s) : Kept a (updAudit f s) := h.seqFrame _ rfl rfl rfl

theorem finishAudit_kept (h : Kept a s) : Kept a (finishAudit s) := by
  unfold finishAudit
  dsimp only
  split
  exacts [updAudit_kept (postSeq_kept h), h]

theorem auditResult_kept {n : Nat} {f : Finding} {v : Option Volser} (h : Kept a s) : Kept a (auditResult n f v s) :=
  updAudit_kept (postSeq_kept h)

theorem auditEnded_kept {n : Nat} {o : AuditOutcome} (h : Kept a s) : Kept a (auditEnded n o s) := by
  unfold auditEnded
  dsimp only
  split
  exacts [auditResult_kept (updAudit_kept (auditReport_kept h)), updAudit_kept (auditReport_kept h)]

theorem auditDropped_kept {n : Nat} (h : Kept a s) : Kept a (auditDropped n s) := auditResult_kept (updAudit_kept h)

theorem auditStep_kept (h : Kept a s) : Kept a (auditStep s) := by
  unfold auditStep
  dsimp only
  split
  · split
    exacts [finishAudit_kept (updAudit_kept h), offerStaged_kept h]
  · exact h

/-! ### Completions (sections 6.2 to 6.5) -/

theorem closeOf_kept {o : ArmOrder} (h : Kept a s) : Kept a (closeOf o s) := by
  unfold closeOf
  split
  exacts [closeRecord_kept h, h]

theorem failOf_kept {o : ArmOrder} {r : FailReason} (h : Kept a s) : Kept a (failOf o r s) := by
  unfold failOf
  split
  exacts [failAndClose_kept h, h]

theorem retireFailed_kept {o : ArmOrder} {e : WearEvent} (h : Kept a s) : Kept a (retireFailed o e s) := by
  unfold retireFailed
  split
  exacts [abandonRetirement_kept h, h]

theorem droppedPick_kept {o : ArmOrder} (h : Kept a s) : Kept a (droppedPick o s) := by
  unfold droppedPick
  split
  · split
    exacts [laneEmpty_kept h, emptyDrive_kept h, h]
  · exact h

theorem toldArm_kept {o : ArmOrder} (h : Kept a s) : Kept a (toldArm o s) := by
  unfold toldArm
  split
  · exact failOf_kept h
  · exact failOf_kept h
  · exact holderFailed_kept h
  · exact retireFailed_kept h
  · split
    exacts [finishAudit_kept (auditDropped_kept h), h]

theorem nextHead_kept {o : ArmOrder} (h : Kept a s) : Kept a (nextHead o s) := by
  unfold nextHead
  split
  exacts [queueHead_kept h, h]

theorem dropOrder_kept {o : ArmOrder} {r : ArmResult} (h : Kept a s) (ho : s.inHand o) : Kept a (dropOrder o r s) := by
  have hk : Kept a (postSeq (o.faultNotice r true) (abandonOrder o .fault s)) := postSeq_kept (abandonOrder_kept h ho)
  have fin {t : State} (ht : Kept a t) : Kept a (nextHead o (toldArm o (droppedPick o t))) :=
    nextHead_kept (toldArm_kept (droppedPick_kept ht))
  unfold dropOrder
  dsimp only
  split
  exacts [fin hk, fin hk, fin (markHeldMissing_kept hk)]

theorem armFaulted_kept {o : ArmOrder} {r : ArmResult} (h : Kept a s) (ho : s.inHand o) : Kept a (armFaulted o r s) := by
  unfold armFaulted
  split
  exacts [dropOrder_kept h ho, postSeq_kept (setInArm_kept h ho ⟨rfl, rfl⟩ (by decide))]

theorem reelInHand_kept {o : ArmOrder} (h : Kept a s) (ho : s.inHand o) : Kept a (reelInHand o s) := by
  have hk : Kept a (setInArm { o with form := .place, phases := phasesOf .place false } .holding s) :=
    setInArm_kept h ho ⟨rfl, rfl⟩ (by decide)
  unfold reelInHand
  dsimp only
  split
  exacts [headGone_kept hk, emptyDrive_kept hk, releaseSrc_kept hk, hk, hk]

/-- No frame that enters the transmit queue touches the sequencer (R36). -/
theorem frameEntered_seq (f : TxFrame) : (frameEntered f s).seq = s.seq := by
  unfold frameEntered
  split
  case h_6 =>
    split
    exacts [updSide_seq .., rfl]
  all_goals rfl

theorem offerTx_seq (f : TxFrame) : (offerTx f s).seq = s.seq := by
  have enter (f : TxFrame) : (enterQueue f s).seq = s.seq := by
    unfold enterQueue
    split <;> exact frameEntered_seq f
  unfold offerTx
  split
  · exact frameEntered_seq f
  · split
    · split
      · rfl
      · split
        exacts [enter f, rfl]
    · split
      exacts [enter f, rfl]

theorem headGone_seq (d : Side) : (headGone d s).seq = s.seq := by
  unfold headGone returnCredit
  split
  · exact (offerTx_seq _).trans (updSide_seq ..)
  · rw [updSide_seq, updSide_seq]

theorem emptyDrive_seq (d : Nat) (id : ReqId) : (emptyDrive d id s).seq = s.seq := by
  unfold emptyDrive
  split
  · split <;> rfl
  · rfl

/-- The reel in hand leaves the order with its number and its to-location. -/
theorem reelInHand_marks {o : ArmOrder} : (o.number, o.dst) ∈ (reelInHand o s).marks := by
  have hm : (o.number, o.dst) ∈ (setInArm { o with form := .place, phases := phasesOf .place false } .holding s).marks :=
    (setInArm_inHand (o := { o with form := .place, phases := phasesOf .place false })).mark
  unfold reelInHand
  dsimp only
  split
  · rwa [State.marks, State.orders, headGone_seq]
  · rwa [State.marks, State.orders, emptyDrive_seq]
  · rwa [releaseSrc_sameClaims.marks]
  · exact hm
  · exact hm

theorem homeCheck_kept {o : ArmOrder} (h : Kept a s) (ho : (o.number, o.dst) ∈ s.marks) : Kept a (homeCheck o s) := by
  have slotFree (n : Nat) (hd : o.dst = .slot n) (k : a.CreditLaw) (d : Side) : o.number ∉ (s.side d).claims := by
    intro hc
    have := List.inj_on_of_nodup_map (h.credit k).claims.numbers ((h.credit k).claims.held d _ hc) ho rfl
    rw [hd] at this
    cases this
  unfold homeCheck
  split
  case h_1 | h_2 =>
    next hdst _ =>
    split
    · exact updOrderDst_kept h (fun _ => rfl) (slotFree _ hdst)
    · exact redirect_kept h
  · exact h

theorem pickDone_kept {o : ArmOrder} (h : Kept a s) (ho : s.inHand o) : Kept a (pickDone o s) :=
  nextHead_kept (homeCheck_kept (reelInHand_kept h ho) reelInHand_marks)

theorem markMisread_kept {o : ArmOrder} (h : Kept a s) : Kept a (markMisread o s) := by
  unfold markMisread
  split
  exacts [markMissing_kept h, h]

theorem pickMismatch_kept {o : ArmOrder} {v : Volser} (h : Kept a s) (ho : s.inHand o) : Kept a (pickMismatch o v s) := by
  have hk : Kept a (redirect o.number .cell (.wrongLabel v) none (markMisread o (reelInHand o s))) :=
    redirect_kept (markMisread_kept (reelInHand_kept h ho))
  unfold pickMismatch
  dsimp only
  split
  · exact holderFailed_kept hk
  all_goals
    split
    exacts [recordMisfiled_kept hk, hk]

theorem pickUnreadable_kept {o : ArmOrder} (h : Kept a s) (ho : s.inHand o) : Kept a (pickUnreadable o s) := by
  have hk : Kept a (redirect o.number .cell .unreadable none (reelInHand o s)) := redirect_kept (reelInHand_kept h ho)
  unfold pickUnreadable
  dsimp only
  split
  · exact holderFailed_kept hk
  all_goals exact hk

theorem repeatRead_kept {o : ArmOrder} (h : Kept a s) (ho : s.inHand o) : Kept a (repeatRead o s) :=
  (sendArm_kept (setInArm_kept h ho (x := { o with repeatUsed := true }) ⟨rfl, rfl⟩ (by decide))).seqFrame _ rfl rfl rfl

theorem setHint_kept {x : Hint} (h : Kept a s) : Kept a (setHint x s) := h.seqFrame _ rfl rfl rfl

theorem pickOk_kept {o : ArmOrder} {l : List Nat} (h : Kept a s) (ho : s.inHand o) : Kept a (pickOk o l s) := by
  unfold pickOk
  split
  · split
    · exact pickDone_kept (setHint_kept h) ho
    · exact pickDone_kept (setHint_kept h) ho
    · exact pickMismatch_kept h ho
    · split
      exacts [pickUnreadable_kept h ho, repeatRead_kept h ho]
  · exact pickDone_kept h ho

theorem readEnded_kept {o : ArmOrder} {x : AuditOutcome} (h : Kept a s) (ho : s.inHand o) : Kept a (readEnded o x s) := by
  unfold readEnded
  split
  exacts [finishAudit_kept (auditEnded_kept (abandonOrder_kept h ho)), abandonOrder_kept h ho]

theorem readOk_kept {o : ArmOrder} {l : List Nat} (h : Kept a s) (ho : s.inHand o) : Kept a (readOk o l s) := by
  unfold readOk
  split
  · exact readEnded_kept (setHint_kept h) ho
  · exact readEnded_kept (setHint_kept h) ho
  · exact readEnded_kept h ho
  · split
    exacts [readEnded_kept h ho, repeatRead_kept h ho]

theorem placedInSlot_kept {o : ArmOrder} {n : Nat} (h : Kept a s) : Kept a (placedInSlot o n s) := by
  unfold placedInSlot
  split
  exacts [closeOf_kept (returnCompletion_kept h), closeOf_kept h]

theorem placedInCell_kept {o : ArmOrder} {v : Volser} {i : Nat} (h : Kept a s) : Kept a (placedInCell o v i s) := by
  unfold placedInCell
  split
  · exact closeOf_kept (postCellReel_kept h rfl)
  · exact closeOf_kept (postCellReel_kept h rfl)
  · exact closeOf_kept (postCellReel_kept h rfl)
  · exact closeOf_kept (postCellReel_kept h rfl)
  · exact postCellReel_kept h rfl
  · split
    exacts [ringPlaced_kept h, h]
  · split
    exacts [retirePlaced_kept h, h]

theorem answerPlace_kept {o : ArmOrder} {b : Bool} (h : Kept a s) : Kept a (answerPlace o b s) := by
  unfold answerPlace
  split
  · split
    · exact queuePickBack_kept (selectArm_kept h)
    · split
      exacts [ringTurned_kept (selectArm_kept h), h]
  · exact h

/-- A credit spent is a claim less, and the arm position is then free to be emptied. -/
theorem spendAndLeave_kept {o : ArmOrder} {d : Side} (h : Kept a s) (ho : s.inHand o) (hd : o.dst = .mouth d) :
    Kept a (spendCredit d o.number (leaveArm .idle s)) := by
  have hcomm : spendCredit d o.number (leaveArm .idle s) = leaveArm .idle (spendCredit d o.number s) := by cases d <;> rfl
  rw [hcomm]
  refine leaveArm_kept (spendCredit_kept h) fun k x hx e => ?_
  have hcl := (h.credit k).claims
  have hn : x.number = o.number := by
    obtain ⟨y, hy, h1, -⟩ := ho
    rw [spendCredit, updSide_seq, hy] at hx
    cases hx
    exact h1
  rw [hn]
  by_cases he : e = d
  · subst he
    have honce := List.nodup_append.mp (hcl.once e)
    rw [spendCredit, updSide_side]
    simp only [SideRec.claims, dropFirst_eq_erase, List.mem_append, not_or]
    exact ⟨honce.1.not_mem_erase, honce.2.1.not_mem_erase⟩
  · rw [spendCredit, updSide_other he]
    intro hc
    have := List.inj_on_of_nodup_map hcl.numbers (hcl.held e _ hc) ho.mark rfl
    rw [hd] at this
    cases this
    exact he rfl

theorem placeOk_kept {o : ArmOrder} (h : Kept a s) (ho : s.inHand o) : Kept a (placeOk o s) := by
  have leave (hd : ∀ d, o.dst ≠ .mouth d) : Kept a (leaveArm .idle s) :=
    leaveArm_kept h fun k => ho.no_claim hd (h.credit k).claims
  unfold placeOk
  dsimp only
  split
  · next hd => exact placedInSlot_kept (leave (by simp [hd]))
  · next d hd =>
    have hk := spendAndLeave_kept h ho hd
    refine closeOf_kept ?_
    unfold depositReel
    dsimp only
    split
    exacts [offerTo_kept hk, hk]
  · next hd =>
    have hk := leave (by simp [hd])
    split
    exacts [answerPlace_kept (placedOnDrive_kept hk), hk]
  · next hd =>
    have hk := leave (by simp [hd])
    split
    exacts [answerPlace_kept (placedInCell_kept hk), hk]

theorem destOccupied_kept {o : ArmOrder} (h : Kept a s) (ho : s.inHand o) : Kept a (destOccupied o s) := by
  have hk : Kept a (setInArm o .holding s) := setInArm_kept h ho ⟨rfl, rfl⟩ (by decide)
  unfold destOccupied
  dsimp only
  split
  · refine redirect_kept ?_
    split
    exacts [markMissing_kept hk, hk]
  · split
    exacts [driveOccupied_kept hk, hk]
  · exact updOrder_kept hk
  · exact hk

theorem slotEmpty_kept {o : ArmOrder} {n : Nat} (h : Kept a s) : Kept a (slotEmpty o n s) := by
  have fin {t : State} (ht : Kept a t) : Kept a (match o.queuedBy with
      | .mount => failOf o .missing t
      | .negotiation => holderFailed o .missing t
      | .wear => retireFailed o .abandonedEmpty t
      | .lane | .audit => t) := by
    split
    exacts [failOf_kept ht, holderFailed_kept ht, retireFailed_kept ht, ht, ht]
  unfold slotEmpty
  dsimp only
  cases o.volser with
  | none => exact fin h
  | some v => exact fin (markMissing_kept h)

theorem driveEmpty_kept {o : ArmOrder} {d : Nat} (h : Kept a s) : Kept a (driveEmpty o d s) := by
  unfold driveEmpty
  split
  · dsimp only
    split
    exacts [markHeldMissing_kept (failAndClose_kept (emptyDrive_kept h)), failAndClose_kept (emptyDrive_kept h)]
  · exact h

theorem sourceEmpty_kept {o : ArmOrder} (h : Kept a s) (ho : s.inHand o) : Kept a (sourceEmpty o s) := by
  have hk : Kept a (abandonOrder o .idle s) := abandonOrder_kept h ho
  unfold sourceEmpty
  dsimp only
  split
  · exact readEnded_kept h ho
  · split
    exacts [slotEmpty_kept hk, driveEmpty_kept hk, nextHead_kept (selectArm_kept (failOf_kept (laneEmpty_kept hk))), failOf_kept hk]

theorem applyCompletion_kept {o : ArmOrder} {r : ArmResult} {x : Option (List Nat)} (h : Kept a s) (ho : s.inHand o) :
    Kept a (applyCompletion o r x s) := by
  unfold applyCompletion
  split
  · exact armFaulted_kept h ho
  · split
    exacts [sourceEmpty_kept h ho, destOccupied_kept h ho, placeOk_kept h ho, pickOk_kept h ho, readOk_kept h ho, h, h]

theorem onCompletion_kept {n : Nat} {r : ArmResult} {x : Option (List Nat)} (h : Kept a s) : Kept a (onCompletion n r x s) := by
  unfold onCompletion
  split
  · next hi =>
    split
    exacts [applyCompletion_kept h ⟨_, hi, rfl, rfl⟩, postSeq_kept h]
  · exact postSeq_kept h

theorem resendArm_kept {o : ArmOrder} (h : Kept a s) (ho : s.inHand o) : Kept a (resendArm o s) := by
  unfold resendArm
  split
  · exact (sendArm_kept (setInArm_kept h ho (x := o) ⟨rfl, rfl⟩ (by decide))).seqFrame _ rfl rfl rfl
  · exact issue_kept h ho

/-! ### Waiting offers -/

theorem runOffer_kept {w : WaitingOffer} (h : Kept a s) (hr : s.seq.queue.length < 12) : Kept a (runOffer w s) := by
  cases w
  exacts [takeOffer_kept h hr, takeLaneHead_kept h hr, sourceLocal_kept h hr]

theorem dropOffer_kept {w : WaitingOffer} (h : Kept a s) : Kept a (dropOffer w s) := h.seqFrame _ rfl rfl rfl

theorem takeWaitingOffer_kept (h : Kept a s) : Kept a (takeWaitingOffer s) := by
  unfold takeWaitingOffer
  split
  · split
    · next hr => exact runOffer_kept (dropOffer_kept h) hr
    · exact h
  · exact h

theorem sourceWaiting_kept {id : ReqId} (h : Kept a s) : Kept a (sourceWaiting id s) := by
  unfold sourceWaiting
  split
  · next hr =>
    simp only [Bool.and_eq_true] at hr
    exact sourceLocal_kept (dropOffer_kept h) (orderRoom_lt (s := s) hr.2)
  · exact h

end

end Sys2Proof.Machine


/-! The line as the station hears it, the clock, the console: these keep the invariants. -/

namespace Sys2Proof.Machine

-- One proof at a time: proofs that wait for each other on threads of their own would reserve more stack than the check allows.
set_option Elab.async false

section
variable {a s : State}

/-! ### Peers (section 2.6) -/

theorem setPeer_kept {n : Nat} {p : Peer} (h : Kept a s) : Kept a (setPeer n p s) :=
  h.line _ (.inr (le_refl _)) id fun k => tableWf_set k ..

theorem dropRemote_kept {n : Nat} (h : Kept a s) : Kept a (dropRemote n s) :=
  h.prm (.inr (le_refl _)) fun k => (List.length_filter_le ..).trans k

theorem lanesDown_kept {n : Nat} (h : Kept a s) : Kept a (lanesDown n s) := by
  unfold lanesDown
  split
  exacts [laneDown_kept h, h]

theorem markDown_kept {n : Nat} (h : Kept a s) : Kept a (markDown n s) :=
  h.ite (dropRemote_kept (lanesDown_kept (forgetHolder_kept (setPeer_kept h))))

theorem dropDedupe_kept {n : Nat} (h : Kept a s) : Kept a (dropDedupe n s) :=
  h.line _ (.inr (le_refl _)) (fun k => tableWf_drop k _) id

theorem reportReturn_kept {n : Nat} (h : Kept a s) : Kept a (reportReturn n s) := by
  unfold reportReturn
  split
  exacts [laneReturn_kept h, h]

theorem touchPeer_kept {n : Nat} (h : Kept a s) : Kept a (touchPeer n s) :=
  (reportReturn_kept (setPeer_kept h)).ite (setPeer_kept h)

/-- A restart is reported, in a station that is not in CONFIG. -/
theorem reportRestart_kept {n : Nat} {x : HelloFields} (h : Kept a s) (hc : s.host.state ≠ .config) : Kept a (reportRestart n x s) := by
  have hk : Kept s (originsRestart n (forgetHolder n s)) := originsRestart_kept (forgetHolder_kept (.refl s))
  unfold reportRestart
  refine dropRemote_kept ?_
  split
  exacts [laneRestart_kept (h.trans hk) fun e => hc (hk.config e), h.trans hk]

theorem onHello_kept {n : Nat} {x : HelloFields} (h : Kept a s) (hc : s.host.state ≠ .config) : Kept a (onHello n x s) := by
  have hk : Kept s (setPeer n ⟨.up, s.silenceLimit, some x⟩ s) := setPeer_kept (.refl s)
  have hr := reportReturn_kept (n := n) hk
  unfold onHello
  exact (reportRestart_kept (dropDedupe_kept (h.trans hk)) hc).ite
    ((laneHello_kept (h.trans hr) fun e => hc (hr.config e)).ite (laneHello_kept (h.trans hk) hc))

/-! ### Address conflict (section 2.7) -/

theorem discardFrames_kept (h : Kept a s) : Kept a (discardFrames s) :=
  foldl_kept (f := fun t f => frameEntered f t) (fun _ _ => frameEntered_kept) s.line.waiting (lineFrame_kept h _ (Nat.zero_le _) rfl rfl)

theorem enterConflict_kept (h : Kept a s) : Kept a (enterConflict s) :=
  h.ite (postHost_kept ((discardFrames_kept h).host _ ⟨rfl, rfl, rfl⟩ rfl rfl rfl nofun))

/-! ### Frames (sections 2.1 to 2.4) -/

theorem onLocate_kept {src : Nat} {id : ReqId} {v : Volser} (h : Kept a s) : Kept a (onLocate src id v s) := by
  unfold onLocate
  split
  exacts [offerTo_kept h, h]

theorem onNotice_kept {src n : Nat} {k : PromptKind} {v : Volser} (h : Kept a s) : Kept a (onNotice src n k v s) := by
  refine h.prm (.inr (le_refl _)) fun hr => ?_
  simp only [onNotice, List.length_append, List.length_singleton]
  have hle := List.length_filter_le (fun e : RemotePrompt => !(e.station == src && e.number == n)) s.prm.remote
  split
  · next hlt => simp only [Config.remotePlaces] at hlt; omega
  · simp only [List.length_tail]; omega

theorem onCleared_kept {src n : Nat} (h : Kept a s) : Kept a (onCleared src n s) :=
  h.prm (.inr (le_refl _)) fun k => (List.length_filter_le ..).trans k

/-- What the block of a frame's kind does with it, for a frame whose source is a station (R26). -/
theorem actOn_kept {src : Nat} {b : Body} (h : Kept a s) (hs : src ≤ 15) : Kept a (actOn src b s) := by
  cases b
  case hello | ack => exact h
  case locate => exact onLocate_kept h
  case holding => exact onHolding_kept (learn_kept h)
  case offer => exact bidFor_kept h
  case bid => exact onBid_kept h fun _ => hs
  case award => exact onAward_kept h
  case accept => exact onAccept_kept h
  case decline => exact onDecline_kept h
  case revoke => exact onRevoke_kept h
  case cancel => exact onCancel_kept h
  case progress => exact onProgress_kept h
  case result => exact onResult_kept h
  case fetch => exact onFetch_kept h
  case notHere => exact onNotHere_kept h
  case deposit => exact onDeposit_kept h
  case credit => exact onCredit_kept h
  case promptNotice => exact onNotice_kept h
  case promptCleared => exact onCleared_kept h

theorem learnFrom_kept {src : Nat} {b : Option Body} (h : Kept a s) : Kept a (learnFrom src b s) := by
  unfold learnFrom
  split
  exacts [learn_kept h, h]

theorem unusable_kept {k : FrameKind} {p : List Byte} (h : Kept a s) : Kept a (unusable k p s) := by
  unfold unusable
  split
  exacts [forgetVolser_kept h, h]

theorem passOn_kept {src : Nat} {k : FrameKind} {p : List Byte} (h : Kept a s) (hs : src ≤ 15) : Kept a (passOn src k p s) := by
  unfold passOn
  split
  exacts [actOn_kept h hs, unusable_kept h]

theorem acceptUnicast_kept {src n : Nat} {k : FrameKind} {p : List Byte} (h : Kept a s) (hs : src ≤ 15) :
    Kept a (acceptUnicast src n k p s) :=
  (sendAck_kept h).ite (passOn_kept (sendAck_kept (h.line _ (.inr (le_refl _)) (fun k => tableWf_put k ..) id)) hs)

theorem takePeerFrame_kept {k : FrameKind} {f : RawFrame} (h : Kept a s) (hs : f.src.toNat ≤ 15) (hc : s.host.state ≠ .config) :
    Kept a (takePeerFrame k f s) := by
  unfold takePeerFrame
  dsimp only
  split
  · exact onHello_kept h hc
  · have take {t : State} (ht : Kept a t) : Kept a (if t.onLine = true then
          if k = .ack then if f.dst.toNat = s.addr then takeAck f.src.toNat f.seq.toNat t else t
          else if k.broadcast = true then passOn f.src.toNat k f.payload t
          else if f.dst.toNat = s.addr then acceptUnicast f.src.toNat f.seq.toNat k f.payload t
          else learnFrom f.src.toNat (bodyOf k f.payload) t
        else learnFrom f.src.toNat (bodyOf k f.payload) t) :=
      (((takeAck_kept ht).ite ht).ite ((passOn_kept ht hs).ite ((acceptUnicast_kept ht hs).ite (learnFrom_kept ht)))).ite
        (learnFrom_kept ht)
    exact take (touchPeer_kept ((dropDedupe_kept h).ite h))

theorem hear_kept {k : FrameKind} {f : RawFrame} (h : Kept a s) : Kept a (hear k f s) := by
  unfold hear
  split
  · exact h
  · next hp =>
    have hsrc : f.src.toNat ≤ 15 := by
      simp only [not_or, Bool.not_eq_false, framePasses, Bool.and_eq_true, decide_eq_true_eq] at hp
      exact hp.2.1.1.2
    split
    · exact (enterConflict_kept h).ite h
    · split
      · exact h
      · next hc => exact takePeerFrame_kept h hsrc hc

theorem hearBytes_kept {l : List Byte} (h : Kept a s) : Kept a (hearBytes l s) := by
  unfold hearBytes
  split
  exacts [hear_kept h, h]

theorem undelivered_kept {n : Nat} {b : Body} (h : Kept a s) : Kept a (undelivered n b s) := by
  cases b
  case bid => exact dropBid_kept h
  case award => exact onDecline_kept h
  case accept => exact onRevoke_kept h
  case fetch => exact fetchUndelivered_kept h
  case deposit => exact depositUndelivered_kept h
  case credit => exact creditUndelivered_kept h
  all_goals exact h

theorem frameFailed_kept {x : Bool} (h : Kept a s) : Kept a (frameFailed x s) := by
  unfold frameFailed
  split
  · exact h
  · dsimp only
    split
    · exact leaveQueue_kept h
    · exact undelivered_kept ((markDown_kept (leaveQueue_kept h)).ite (leaveQueue_kept h))

theorem attemptCollided_kept (h : Kept a s) : Kept a (attemptCollided s) := by
  refine Kept.ite (Kept.ite ?_ (frameFailed_kept h)) h
  exact lineFrame_kept h _ (le_refl _) rfl rfl

theorem ackWaitEnded_kept (h : Kept a s) : Kept a (ackWaitEnded s) := by
  refine Kept.ite (Kept.ite ?_ (frameFailed_kept h)) h
  exact lineFrame_kept h _ (le_refl _) rfl rfl

/-! ### The clock -/

theorem clockTick_kept (h : Kept a s) : Kept a (clockTick s) := by
  have hhost : Kept a { s with host := { s.host with clock := s.clock + 1 } } := h.host _ ⟨rfl, rfl, rfl⟩ rfl rfl rfl id
  have hdir := hhost.dir { s.dir with learnt := s.dir.learnt.map fun e => (e.1, { e.2 with lifetime := e.2.lifetime - 1 }) } id
    (fun k => tableWf_map k _ fun _ => rfl)
    (fun _ _ k => by simpa only [Directory.volsersOnce, List.map_map, Function.comp_def] using k) fun k e he => by
      obtain ⟨x, hx, rfl⟩ := List.mem_map.mp he
      exact k x hx
  have hline := hdir.line { s.line with
      presence := tick s.line.presence
      peers := s.line.peers.map fun e =>
        (e.1, if e.2.presence = .up then { e.2 with silence := e.2.silence - 1 } else e.2) } (.inr (le_refl _)) id
    fun k => tableWf_map k _ fun _ => rfl
  have hneg := hline.neg { s.neg with origins := s.neg.origins.map fun o => { o with watch := tick o.watch } }
    (.inr (List.length_map ..).le) id fun _ k o ho => by
      obtain ⟨x, hx, rfl⟩ := List.mem_map.mp ho
      exact k x hx
  refine Kept.ite (hneg.mnt (List.length_map ..) fun k => ?_) h
  exact updMounts_agree (g := fun m => { m with arrivalLimit := tick m.arrivalLimit, loadWait := tick m.loadWait }) _ rfl rfl
    (fun _ => ⟨rfl, rfl, rfl, rfl⟩) k

theorem presenceExpired_kept (h : Kept a s) : Kept a (presenceExpired s) := by
  refine Kept.ite (offerHello_kept ?_) h
  exact lineFrame_kept h _ (le_refl _) rfl rfl

theorem silenceExpired_kept {n : Nat} (h : Kept a s) : Kept a (silenceExpired n s) := (markDown_kept h).ite h

theorem learntExpired_kept {n : Nat} (h : Kept a s) : Kept a (learntExpired n s) := by
  unfold learntExpired
  split
  · refine Kept.ite ?_ h
    exact h.dirSublist _ (.refl _) List.filter_sublist
  · exact h

/-! ### The console (sections 8.3 to 8.5) -/

theorem countAction_kept {p : Prompt} (h : Kept a s) : Kept a (countAction p s) := by
  unfold countAction
  split
  exacts [updMount_kept h, h]

theorem fetchFailed_kept {p : Prompt} {r : FailReason} (h : Kept a s) : Kept a (fetchFailed p r s) := by
  unfold fetchFailed
  dsimp only
  split
  exacts [failAndClose_kept (endPrompt_kept h), endPrompt_kept h]

theorem ringFailed_kept {p : Prompt} (h : Kept a s) : Kept a (ringFailed p s) := by
  unfold ringFailed
  split
  exacts [ringReturn_kept (failRecord_kept h), h]

theorem unreadableDone_kept {p : Prompt} (h : Kept a s) : Kept a (unreadableDone p s) := by
  unfold unreadableDone
  split
  · exact offerStaged_kept h
  · split
    · exact (show Kept a (rereadHome _ _ _ s) from offerStaged_kept h).ite (becomeRemove_kept h)
    · exact becomeRemove_kept h

theorem unreadableCannot_kept {p : Prompt} (h : Kept a s) : Kept a (unreadableCannot p s) := by
  have hk : Kept a (becomeRemove p.number (markHeldMissing p.volser s)) := becomeRemove_kept (markHeldMissing_kept h)
  unfold unreadableCannot
  dsimp only
  split
  exacts [failAndClose_kept hk, hk]

theorem retireAnswered_kept {p : Prompt} (h : Kept a s) : Kept a (retireAnswered p s) := by
  unfold retireAnswered
  split
  exacts [retireEnded_kept (endPrompt_kept (retireFinish_kept h)), endPrompt_kept h]

theorem answerDone_kept {p : Prompt} (h : Kept a s) : Kept a (answerDone p s) := by
  unfold answerDone
  split
  · split
    · exact offerStaged_kept (updMount_kept (setCell_kept h))
    · exact h
  · split
    · exact offerStaged_kept (updMount_kept h)
    · exact h
  · exact unreadableDone_kept h
  · exact retireAnswered_kept h
  all_goals exact endPrompt_kept h

theorem answerCannot_kept {p : Prompt} (h : Kept a s) : Kept a (answerCannot p s) := by
  unfold answerCannot
  split
  · exact fetchFailed_kept h
  · exact ringFailed_kept h
  · exact unreadableCannot_kept h
  · exact retireAnswered_kept h
  all_goals exact endPrompt_kept h

theorem answerKey_kept {f : Prompt → State → State} (h : Kept a s) (hf : ∀ p t, Kept a t → Kept a (f p t)) :
    Kept a (answerKey f s) := by
  unfold answerKey
  split
  · exact h
  · exact Kept.ite (h.prmFrame _ rfl rfl) (hf _ _ (clearEscalated_kept (h.prmFrame _ rfl rfl)))

theorem keyDone_kept (h : Kept a s) : Kept a (keyDone s) :=
  answerKey_kept (f := fun p s => answerDone p (countAction p s)) h fun _ _ k => answerDone_kept (countAction_kept k)

theorem keyCannot_kept (h : Kept a s) : Kept a (keyCannot s) := answerKey_kept h fun _ _ => answerCannot_kept

theorem keyNext_kept (h : Kept a s) : Kept a (keyNext s) := by
  unfold keyNext
  split
  · exact h
  · dsimp only
    split
    · exact h.prmFrame _ rfl rfl
    · exact h.prmFrame _ rfl rfl

theorem reminded_kept {n : Nat} (h : Kept a s) : Kept a (reminded n s) := by
  unfold reminded
  split
  · split
    · exact (updPrompt_kept h).ite h
    · exact h
  · exact h

theorem escalated_kept {n : Nat} (h : Kept a s) : Kept a (escalated n s) := by
  unfold escalated
  split
  · split
    · exact (offerAll_kept (updPrompt_kept h)).ite h
    · exact h
  · exact h

theorem fetchExpired_kept {n : Nat} (h : Kept a s) : Kept a (fetchExpired n s) := by
  unfold fetchExpired
  split
  · exact (fetchFailed_kept h).ite h
  · exact h

theorem ringExpired_kept {n : Nat} (h : Kept a s) : Kept a (ringExpired n s) := by
  unfold ringExpired
  split
  · exact (ringFailed_kept (clearEscalated_kept h)).ite h
  · exact h

theorem doorMoved_kept {x : Bool} (h : Kept a s) : Kept a (doorMoved x s) :=
  Kept.prmFrame (h.outside { s.pins with doorOpen := x } s.pending) _ rfl rfl

end

end Sys2Proof.Machine


/-! The host's commands, and every event of the part: the invariants are kept. -/

namespace Sys2Proof.Machine

-- One proof at a time: proofs that wait for each other on threads of their own would reserve more stack than the check allows.
set_option Elab.async false

/-! ### Records that enter the report FIFO -/

/-- The state with records at the tail of the report FIFO. -/
def pushAll (l : List Report) (s : State) : State := { s with host := { s.host with reports := s.host.reports ++ l } }

section
variable {a s : State}

theorem creditLaw_pushAll (l : List Report) : (pushAll l s).CreditLaw ↔ s.CreditLaw :=
  ⟨fun ⟨⟨k1, k2, k3, k4⟩, k⟩ => ⟨⟨k1, k2, k3, k4⟩, k⟩, fun ⟨⟨k1, k2, k3, k4⟩, k⟩ => ⟨⟨k1, k2, k3, k4⟩, k⟩⟩

/-- What is kept is kept beside the records that have entered the report FIFO. -/
theorem Kept.pushAll (h : Kept a s) (l : List Report) : Kept (Machine.pushAll l a) (Machine.pushAll l s) where
  port := ⟨h.port.1, congrArg (· ++ l) h.port.2.1, h.port.2.2⟩
  places := h.places
  tables := h.tables
  volsers := h.volsers
  spool := h.spool
  mounts := h.mounts
  credit k := (creditLaw_pushAll l).mpr (h.credit ((creditLaw_pushAll l).mp k))
  config := h.config

/-- `t` has come from `s` by a command that put its records, at least one and no more than there is room for, into the report FIFO, and
kept the invariants besides. -/
def Answers (s t : State) : Prop :=
  ∃ l, (s.host.reports.length < 32 → s.host.reports.length + l.length ≤ 32) ∧ Kept (pushAll l s) t

/-- One answer, before or after what the command does. -/
theorem answers_of {t : State} {tag : Byte} {x : Answer} (h : Kept (answer tag x s) t) : Answers s t :=
  ⟨[.answer tag x], fun hr => hr, h⟩

theorem answers_last {t : State} {tag : Byte} {x : Answer} (h : Kept s t) : Answers s (answer tag x t) :=
  answers_of (h.pushAll _)

theorem answers_only {tag : Byte} {x : Answer} : Answers s (answer tag x s) := answers_last (.refl s)

/-! ### The commands -/

/-- In CONFIG no credit has been agreed on, and any setting may change (R152). -/
theorem settings_kept {t : State} (hc : s.host.state = .config)
    (ht : t = { s with host := { s.host with settings := t.host.settings } } := by rfl) : Kept s t := by
  rw [ht]
  refine ⟨⟨rfl, rfl, rfl⟩, id, id, fun _ => id, id, id, fun ⟨⟨k1, k2, k3, k4⟩, k⟩ => ⟨⟨k1, k2, k3, k4⟩, fun d => ?_⟩, id⟩
  obtain ⟨f1, f2, f3, f4, f5⟩ := k d
  exact ⟨f1, (f5 hc).le.trans (Nat.zero_le _), f3, f4, f5⟩

theorem configureItem_kept {k : Keyword} {v : List Byte} (hc : s.host.state = .config) : Kept s (configureItem k v s).state := by
  unfold configureItem
  split
  case h_8 =>
    unfold driveItem
    split
    · exact .refl s
    · split
      exacts [.refl s, updDrive_kept (.refl s)]
  case h_10 | h_11 =>
    unfold mouthItem
    split
    exacts [settings_kept hc, .refl s]
  case h_12 =>
    unfold rateItem
    split
    exacts [.refl s, settings_kept hc]
  case h_16 =>
    unfold timerItem
    split
    exacts [settings_kept hc, .refl s]
  case h_19 => exact .refl s
  all_goals exact settings_kept hc

theorem cmdConfigure_answers {tag : Byte} {p : List Byte} (hc : s.host.state = .config) : Answers s (cmdConfigure tag p s) := by
  unfold cmdConfigure
  split
  · split
    exacts [answers_last (configureItem_kept hc), answers_only]
  · exact answers_only

theorem startStation_kept : Kept s (startStation s) :=
  offerHello_kept (lineFrame_kept ((Kept.refl s).host { s.host with state := .running, clock := 0, clockRuns := true }
    ⟨rfl, rfl, rfl⟩ rfl rfl rfl nofun) _ (le_refl _) rfl rfl)

theorem Answers.ite {t u : State} {c : Prop} [Decidable c] (h : Answers s t) (k : Answers s u) : Answers s (if c then t else u) := by
  split
  exacts [h, k]

theorem cmdStart_answers {tag : Byte} : Answers s (cmdStart tag s) := (answers_last startStation_kept).ite answers_only

/-- The station state changes, and not to CONFIG. -/
theorem setStation_kept {x : StationState} (hx : x ≠ .config) : Kept s (setStation x s) :=
  (Kept.refl s).host _ ⟨rfl, rfl, rfl⟩ rfl rfl rfl fun e => absurd e hx

theorem startRequest_answers {tag : Byte} {v : Volser} {spec : DriveSpec} {w : Bool} {c n : Nat} :
    Answers s (startRequest tag v spec w c n s) := by
  unfold startRequest
  split
  · exact answers_only
  · split
    · exact answers_only
    · next hr =>
      simp only [Config.originPlaces, Nat.not_le] at hr
      have hk : Kept s { s with neg := { s.neg with
          origins := s.neg.origins ++ [OriginRec.make ⟨s.addr, s.nextRequest⟩ v spec w c n tag]
          seqCounter := wrapSucc 256 s.nextRequest } } := by
        refine (Kept.refl s).neg _ (.inl ?_) id fun _ k o ho => ?_
        · simpa using hr
        · obtain ho | ho := List.mem_append.mp ho
          · exact k o ho
          · rw [List.mem_singleton.mp ho]
            rfl
      exact answers_of (lookupNew_kept (hk.pushAll [.answer tag (.started ⟨s.addr, s.nextRequest⟩)]))

theorem cmdMount_answers {tag : Byte} {p : List Byte} : Answers s (cmdMount tag p s) := by
  unfold cmdMount
  split
  · dsimp only
    split
    exacts [startRequest_answers.ite answers_only, answers_only]
  · exact answers_only

theorem cmdCancel_answers {tag : Byte} {id : ReqId} : Answers s (cmdCancel tag id s) := by
  have hend : Kept (answer tag .cancelTaken s) (answer tag .cancelTaken (endRequest id .cancelled s)) :=
    (endRequest_kept (.refl s)).pushAll _
  have hcan : Kept (answer tag .cancelTaken s) (answer tag .cancelTaken (updOrigin id (fun o => { o with state := .cancelling }) s)) :=
    (updOrigin_kept (.refl s)).pushAll _
  unfold cmdCancel
  split
  · exact answers_only
  · split
    · exact answers_of hend
    · exact answers_of hend
    · dsimp only
      split
      exacts [answers_of (sendRevoke_kept hend), answers_of hend]
    · dsimp only
      split
      exacts [answers_of (sendCancel_kept hcan), answers_of hcan]
    · exact answers_only

theorem cmdDirRead_answers {tag : Byte} {n : Nat} : Answers s (cmdDirRead tag n s) := by
  unfold cmdDirRead
  split
  · split <;> exact answers_only
  · exact answers_only

/-- Of a volser that stands once, no slot holds it but the one found. -/
theorem homeOf_unique (hv : s.dir.volsersOnce) {v : Volser} {x : Nat × HomeEntry} (hx : s.homeOf v = some x) {e : Nat × HomeEntry}
    (he : e ∈ s.dir.catalog) (hev : e.2.volser = v) : e = x :=
  List.inj_on_of_nodup_map (List.nodup_append.mp hv).1 he (List.mem_of_find?_eq_some hx)
    (hev.trans (by simpa using List.find?_some hx : x.2.volser = v).symm)

/-- The catalogue without the other slot that holds a volser (R21). -/
def State.clearedOf (s : State) (slot : Nat) (v : Volser) : Table HomeEntry :=
  match s.movedFrom slot v with
  | some other => tableDrop s.dir.catalog other
  | none => s.dir.catalog

theorem clearedOf_sublist (slot : Nat) (v : Volser) : (s.clearedOf slot v).Sublist s.dir.catalog := by
  unfold State.clearedOf
  split
  exacts [List.filter_sublist, .refl _]

/-- In it the volser stands at no slot but the one it is written to. -/
theorem clearedOf_volser (hv : s.dir.volsersOnce) {slot : Nat} {v : Volser} {e : Nat × HomeEntry} (he : e ∈ s.clearedOf slot v)
    (hne : e.1 ≠ slot) : e.2.volser ≠ v := by
  intro hev
  have hmem := (clearedOf_sublist slot v).subset he
  cases hh : s.homeOf v with
  | none => exact absurd hev (by simpa using List.find?_eq_none.mp hh e hmem)
  | some x =>
    obtain rfl := homeOf_unique hv hh hmem hev
    simp [State.clearedOf, State.movedFrom, hh, hne, tableDrop] at he

/-- What the writing of a slot does to the directory (R21). -/
theorem writeSlot_eq (slot : Nat) (v : Volser) (p : Nat) (r : Bool) (s : State) : writeSlot slot v p r s
    = clearWear slot { s with dir := {
        catalog := tablePut (s.clearedOf slot v) slot ⟨v, p, r, .home, none⟩
        learnt := s.dir.learnt.filter fun e => !decide (e.2.volser = v) } } := by
  unfold writeSlot State.clearedOf
  cases s.movedFrom slot v <;> rfl

theorem writeSlot_kept {slot p : Nat} {v : Volser} {r : Bool} : Kept s (writeSlot slot v p r s) := by
  have hwf (k : tableWf s.dir.catalog = true) : tableWf (s.clearedOf slot v) = true := by
    rw [tableWf_iff] at *
    exact k.sublist ((clearedOf_sublist slot v).map _)
  rw [writeSlot_eq]
  refine setWear_kept ((Kept.refl s).dir _ (fun k => tableWf_put (hwf k) ..) (fun k => tableWf_filter k _) (fun kc kl hv => ?_)
    fun k e he => k e (List.mem_of_mem_filter he))
  obtain ⟨h1, h2, h3⟩ := List.nodup_append.mp hv
  refine List.nodup_append.mpr ⟨nodup_map_tablePut (·.volser) (h1.sublist ((clearedOf_sublist slot v).map _))
    (fun e he hne => clearedOf_volser hv he hne) (hwf kc), h2.sublist (List.filter_sublist.map _), fun x hx y hy e => ?_⟩
  obtain ⟨f, hf, rfl⟩ := List.mem_map.mp hy
  obtain ⟨g, hg, rfl⟩ := List.mem_map.mp hx
  rw [List.mem_filter] at hf
  obtain rfl | hg := mem_tablePut hg
  · simp only [Bool.not_eq_true', decide_eq_false_iff_not] at hf
    exact hf.2 e.symm
  · exact h3 _ (List.mem_map_of_mem ((clearedOf_sublist slot v).subset hg)) _ (List.mem_map_of_mem hf.1) e

theorem cmdDirWrite_answers {tag : Byte} {p : List Byte} : Answers s (cmdDirWrite tag p s) := by
  have hw (slot : Nat) (v : Volser) (pool : Nat) (ring : Bool) : Answers s (dirWrite tag slot v pool ring s) := by
    unfold dirWrite
    split
    exacts [answers_only, answers_last writeSlot_kept]
  unfold cmdDirWrite
  split
  · dsimp only
    split
    exacts [(hw ..).ite answers_only, answers_only]
  · exact answers_only

theorem cmdDirDelete_answers {tag : Byte} {p : List Byte} : Answers s (cmdDirDelete tag p s) := by
  have hslot (n : Nat) : Answers s (deleteSlot tag n s) := by
    unfold deleteSlot
    split
    · exact answers_only
    · exact answers_only.ite (answers_last (dropEntry_kept (.refl s)))
  have hlearnt (v : Volser) : Answers s (deleteLearnt tag v s) := by
    unfold deleteLearnt
    split
    exacts [answers_last (forgetVolser_kept (.refl s)), answers_only]
  unfold cmdDirDelete
  split
  · exact ((hslot _).ite answers_only).ite (((hlearnt _).ite answers_only).ite answers_only)
  · exact answers_only

theorem cmdDirSearch_answers {tag : Byte} {v : Volser} : Answers s (cmdDirSearch tag v s) := by
  unfold cmdDirSearch
  split
  · split <;> exact answers_only
  · exact answers_only

theorem cmdDirClear_answers {tag x n : Byte} : Answers s (cmdDirClear tag x n s) := by
  unfold cmdDirClear
  split
  · unfold clearEntries
    split
    · exact answers_only
    · exact answers_last ((Kept.refl s).dirSublist _ List.filter_sublist (.refl _))
  · exact answers_only

theorem cmdVaryDrive_answers {tag : Byte} {d n : Nat} : Answers s (cmdVaryDrive tag d n s) := by
  unfold cmdVaryDrive
  split
  · exact (answers_last (updDrive_kept (.refl s))).ite answers_only
  · exact answers_only

/-- The hold flag set or cleared leaves the credit within its bounds. -/
theorem hold_kept {d : Side} {f : SideRec → SideRec}
    (hf : ∀ r, ∃ b x, f r = { r with hold := b, outbound := x } ∧ (x = r.outbound ∨ (x ≠ .agreeing ∧ x ≠ .notFitted))) :
    Kept s (updSide d f s) := by
  obtain ⟨b, x, he, hx⟩ := hf (s.side d)
  refine updSide_kept (.refl s) (by rw [he]; exact id) (fun k => ?_) fun _ => by rw [he]; exact .refl _
  obtain ⟨f1, f2, f3, f4, f5⟩ := k.fits d
  rw [he]
  refine ⟨f1, f2, fun e => ?_, fun e => ?_, f5⟩
  · exact f3 (hx.elim (fun h => h ▸ e) fun h => absurd e h.1)
  · exact f4 (hx.elim (fun h => h ▸ e) fun h => absurd e h.2)

theorem cmdVaryLane_answers {tag : Byte} {d n : Nat} : Answers s (cmdVaryLane tag d n s) := by
  unfold cmdVaryLane
  split
  · refine Answers.ite (Answers.ite (answers_last (hold_kept fun r => ⟨true, _, rfl, ?_⟩))
      (Answers.ite (answers_last (grantCredits_kept (hold_kept fun r => ⟨false, _, rfl, ?_⟩))) answers_only)) answers_only
    · by_cases h : r.outbound = .isOpen <;> simp [h]
    · by_cases h : r.outbound = .held <;> simp [h]
  · exact answers_only

theorem cmdAudit_answers {tag : Byte} {x y : Nat} : Answers s (cmdAudit tag x y s) :=
  (answers_only.ite (answers_last (updAudit_kept (.refl s)))).ite answers_only

theorem cmdArmResume_answers {tag : Byte} : Answers s (cmdArmResume tag s) := by
  unfold cmdArmResume
  split
  · split
    · next ho => exact answers_only.ite (answers_last (resendArm_kept (.refl s) ⟨_, ho, rfl, rfl⟩))
    · next ho => exact answers_last (leaveArm_kept (.refl s) fun _ o h => by rw [ho] at h; cases h)
  · exact answers_only

theorem cmdDrain_answers {tag : Byte} {k : Nat} : Answers s (cmdDrain tag k s) := by
  have moved (m : Nat) (hm : m ≤ s.reportRoom - 1) (x : Answer) :
      Answers s ((s.acct.spool.take m).foldl (fun s r => pushReport (.accounting tag r) s)
        (answer tag x { s with acct := { s.acct with spool := s.acct.spool.drop m } })) := by
    have hk : Kept s { s with acct := { s.acct with spool := s.acct.spool.drop m } } := (Kept.refl s).acct id (by simp) fun _ => rfl
    rw [foldl_pushReport]
    refine ⟨[.answer tag x] ++ (s.acct.spool.take m).map (Report.accounting tag), fun hr => ?_, ?_⟩
    · simp only [List.length_append, List.length_singleton, List.length_map, List.length_take]
      simp only [State.reportRoom, Config.reportPlaces] at hm
      omega
    · have hp := (hk.pushAll [.answer tag x]).pushAll ((s.acct.spool.take m).map (Report.accounting tag))
      simpa only [Machine.pushAll, answer, pushReport, List.append_assoc] using hp
  have hm := moved (min k (min s.held (s.reportRoom - 1))) (by omega)
    (.drained (min k (min s.held (s.reportRoom - 1))) (s.held - min k (min s.held (s.reportRoom - 1))))
  unfold cmdDrain
  dsimp only
  split
  · exact hm
  · obtain ⟨l, hl, hk⟩ := hm
    exact ⟨l, hl, evalSpool_kept hk⟩

theorem cmdAccountClear_answers {tag : Byte} {x n : Nat} : Answers s (cmdAccountClear tag x n s) := by
  have cleared {t : State} {m : Nat} (h : Kept s t) : Kept s (updAccount m Account.cleared t) := updAccount_kept h fun _ => rfl
  unfold cmdAccountClear
  refine (answers_last (cleared (.refl s))).ite ((answers_last ?_).ite answers_only)
  exact foldl_kept (f := fun s n => updAccount n Account.cleared s) (fun _ _ h => h.trans (updAccount_kept (.refl _) fun _ => rfl)) _ (.refl s)

/-- A command that the station state takes, other than RESET, answers and keeps the invariants (R196). -/
theorem runCommand_answers {code : Nat} {tag : Byte} {p : List Byte} (h : takenIn code s.host.state = true) :
    Answers s (runCommand code tag p s) := by
  unfold runCommand
  split
  case h_1 =>
    refine cmdConfigure_answers ?_
    cases hs : s.host.state <;> rw [hs] at h <;> first | rfl | cases h
  case h_2 => exact cmdStart_answers
  case h_3 => exact answers_last (setStation_kept (by decide))
  case h_4 => exact answers_last (setStation_kept (by decide))
  case h_6 => exact cmdMount_answers
  case h_7 => exact cmdCancel_answers
  case h_8 => exact cmdDirRead_answers
  case h_9 => exact cmdDirWrite_answers
  case h_10 => exact cmdDirDelete_answers
  case h_11 => exact cmdDirSearch_answers
  case h_12 => exact cmdDirClear_answers
  case h_13 => exact cmdVaryDrive_answers
  case h_14 => exact cmdVaryLane_answers
  case h_15 => exact cmdAudit_answers
  case h_16 => exact cmdArmResume_answers
  case h_17 => exact cmdDrain_answers
  case h_19 => exact cmdAccountClear_answers
  all_goals exact answers_only

theorem takeCommand_answers {r : CmdRec} : Answers s (takeCommand r s) := by
  unfold takeCommand
  split
  · split
    · next h => exact runCommand_answers h
    · exact answers_only
  · exact answers_only

/-! ### Every event -/

/-- `s` has come from `a` by an event that keeps the invariants. -/
structure Sound (a s : State) : Prop where
  fifos : a.fifosFit = true → s.fifosFit = true
  places : a.placesFit = true → s.placesFit = true
  tables : a.tablesOrdered = true → s.tablesOrdered = true
  volsers : a.tablesOrdered = true → a.volsersOnce = true → s.volsersOnce = true
  spool : a.spoolLaw = true → s.spoolLaw = true
  mounts : a.mountsAgree → s.mountsAgree
  credit : a.CreditLaw → s.CreditLaw

theorem fifosFit_iff (s : State) :
    s.fifosFit = true ↔ s.host.commands.length ≤ 8 ∧ s.host.reports.length ≤ 32 ∧ s.host.pointer ≤ 8 := by
  simp only [State.fifosFit, Bool.and_eq_true, decide_eq_true_eq, and_assoc]
  rfl

theorem Kept.sound (h : Kept a s) : Sound a s where
  fifos := by
    rw [fifosFit_iff, fifosFit_iff, h.port.1, h.port.2.1, h.port.2.2]
    exact id
  places := h.places
  tables := h.tables
  volsers := h.volsers
  spool := h.spool
  mounts := h.mounts
  credit := h.credit

theorem Sound.trans {b : State} (h : Sound a s) (k : Sound s b) : Sound a b where
  fifos := k.fifos ∘ h.fifos
  places := k.places ∘ h.places
  tables := k.tables ∘ h.tables
  volsers ht hv := k.volsers (h.tables ht) (h.volsers ht hv)
  spool := k.spool ∘ h.spool
  mounts := k.mounts ∘ h.mounts
  credit := k.credit ∘ h.credit

/-- A change of the host port's FIFOs, pointer and displays within their places. -/
theorem port_sound {x : HostPort} (hx : x = { x with state := s.host.state, straps := s.host.straps, settings := s.host.settings })
    (hf : s.fifosFit = true → x.commands.length ≤ 8 ∧ x.reports.length ≤ 32 ∧ x.pointer ≤ 8) : Sound s { s with host := x } := by
  refine ⟨fun k => (fifosFit_iff _).mpr (hf k), ?_, id, fun _ => id, id, id, fun ⟨⟨k1, k2, k3, k4⟩, k⟩ => ?_⟩
  · rw [hx]; exact id
  · rw [hx]; exact ⟨⟨k1, k2, k3, k4⟩, k⟩

/-- A command that answers within the room there is. -/
theorem Answers.sound {t : State} (h : Answers s t) (hr : s.host.reports.length < 32) : Sound s t := by
  obtain ⟨l, hl, hk⟩ := h
  refine Sound.trans (port_sound rfl fun k => ?_) hk.sound
  rw [fifosFit_iff] at k
  refine ⟨k.1, ?_, k.2.2⟩
  rw [List.length_append]
  exact hl hr

theorem writeCommand_sound {r : CmdRec} : Sound s (writeCommand r s) := by
  unfold writeCommand
  split
  · next hr =>
    refine port_sound rfl fun k => ?_
    rw [fifosFit_iff] at k
    exact ⟨(List.length_append ..).trans_le hr, k.2⟩
  · exact port_sound rfl (fifosFit_iff s).mp

theorem readReport_sound : Sound s (readReport s) := by
  unfold readReport
  split
  · next hr =>
    refine port_sound rfl fun k => ?_
    rw [fifosFit_iff, hr, List.length_cons] at k
    exact ⟨k.1, (Nat.le_succ _).trans k.2.1, k.2.2⟩
  · exact port_sound rfl (fifosFit_iff s).mp

/-- Device reset leaves a state that meets every invariant. -/
theorem reset_sound (p : Pins) (c : List Instr) : Sound s (State.resetWith p c) := by
  have hs := resetWith_safe p c
  simp only [State.safe, Bool.and_eq_true] at hs
  exact ⟨fun _ => hs.1.1.1.2, fun _ => hs.1.1.2, fun _ => hs.2, fun _ _ => resetWith_volsersOnce p c, fun _ => hs.1.2,
    fun _ => resetWith_mountsAgree p c, fun _ => (creditLaw_iff _).mp (resetWith_creditLaw p c)⟩

theorem noticeEntered_kept {n : Notice} (h : Kept a s) : Kept a (noticeEntered n s) := by
  unfold noticeEntered
  split
  exacts [sweepOrigins_kept (updOrigin_kept h), h]

theorem takeNotice_kept {k : Nat} {n : Notice} {t : State} (h : s.takeNotice k = some (n, t)) : Kept s t := by
  unfold State.takeNotice at h
  split at h
  case h_8 => cases h
  all_goals
    split at h
    case h_2 => cases h
  all_goals
    simp only [Option.some.injEq, Prod.mk.injEq] at h
    rw [← h.2]
  exacts [(Kept.refl s).neg _ (.inr (le_refl _)) id fun _ => id, (Kept.refl s).mnt rfl id, (Kept.refl s).seqFrame _ rfl rfl rfl,
    (Kept.refl s).laneFrame _ rfl rfl, (Kept.refl s).wear _ id, (Kept.refl s).acct id (le_refl _) fun _ => rfl,
    (Kept.refl s).host _ ⟨rfl, rfl, rfl⟩ rfl rfl rfl id]

theorem setPointer_sound {k : Nat} (hk : k ≤ 8) : Sound s (setPointer k s) := by
  refine port_sound rfl fun h => ?_
  rw [fifosFit_iff] at h
  exact ⟨h.1, h.2.1, hk⟩

theorem takeFirstCommand_sound (hr : s.host.reports.length < 32) : Sound s (takeFirstCommand s) := by
  unfold takeFirstCommand
  split
  · next c =>
    refine Sound.trans (port_sound rfl fun h => ?_) (takeCommand_answers.sound hr)
    rw [fifosFit_iff, c, List.length_cons] at h
    exact ⟨by simp only; omega, h.2⟩
  · exact (Kept.refl s).sound

theorem grantTo_sound {k : Nat} (hk : k ≤ 8) (hr : s.host.reports.length < 32) : Sound s (grantTo k s) := by
  have hp : Sound s (setPointer k s) := setPointer_sound hk
  unfold grantTo
  dsimp only
  split
  · exact hp.trans (takeFirstCommand_sound hr)
  · split
    · next n t ht =>
      refine hp.trans (Answers.sound ⟨[.notice n], fun h => h, noticeEntered_kept ((takeNotice_kept ht).pushAll _)⟩ hr)
    · exact hp

theorem grantee_some {k : Nat} (h : s.grantee = some k) : k ≤ 8 ∧ s.host.reports.length < 32 := by
  unfold State.grantee at h
  split at h
  · next hr =>
    have hm := List.mem_of_find?_eq_some h
    simp only [rotation, List.mem_append, List.mem_filter, List.mem_cons, List.not_mem_nil, or_false] at hm
    simp only [State.reportRoom, Config.reportPlaces] at hr
    omega
  · cases h

theorem grantPlace_sound : Sound s (grantPlace s) := by
  unfold grantPlace
  split
  · exact reset_sound _ _
  · split
    · next hk => exact grantTo_sound (grantee_some hk).1 (grantee_some hk).2
    · exact (Kept.refl s).sound

theorem hostCommand_sound {c : Nat} {tag : Byte} {p : List Byte} : Sound s (hostCommand c tag p s) := by
  have hw : Sound s (if s.host.commands.head? = some ⟨BitVec.ofNat 8 c, tag, p⟩ then s
      else writeCommand ⟨BitVec.ofNat 8 c, tag, p⟩ s) := by
    split
    exacts [(Kept.refl s).sound, writeCommand_sound]
  have grant {t : State} (ht : Sound s t) (q : Prop) [Decidable q] : Sound s (if q then grantPlace t else t) := by
    split
    exacts [ht.trans grantPlace_sound, ht]
  exact grant hw _

/-- An event's change, with the choices of the arm and the display after it. -/
theorem settled_sound {t : State} {k : Bool} (h : Sound s t) : Sound s (settle k t) := h.trans (settle_keptBy (.refl t)).sound

theorem event_sound {f : State → State} {k : Bool} {t : State} (hf : Sound s (f s))
    (h : Host.Outcome.next (if s.pins.resetHeld = true then s else settle k (f s)) = (.next t : Host.Outcome State Fault Refusal)) :
    Sound s t := by
  cases h
  split
  exacts [(Kept.refl s).sound, settled_sound hf]

/-- Whatever command is run, the invariants are kept. -/
theorem exec_sound {c : Instr} {t : State} (h : exec c s = .next t) : Sound s t := by
  cases c
  case commandWrite => exact event_sound writeCommand_sound h
  case reportRead => exact event_sound readReport_sound h
  case reportPlaceGrant => exact event_sound grantPlace_sound h
  case deviceReset => cases h; exact reset_sound _ _
  case resetPinRelease => cases h; exact ((Kept.refl s).outside _ _).sound
  case doorSwitch => cases h; exact settled_sound (doorMoved_kept (.refl s)).sound
  case stationClockTick => exact event_sound (clockTick_kept (.refl s)).sound h
  case frameCheckFail => exact event_sound (hearBytes_kept (.refl s)).sound h
  case transmitAttemptStart => exact event_sound (attemptStart_kept (.refl s)).sound h
  case echoMismatch => exact event_sound (attemptCollided_kept (.refl s)).sound h
  case attemptSuccess => exact event_sound (attemptDone_kept (.refl s)).sound h
  case ackWaitExpiry => exact event_sound (ackWaitEnded_kept (.refl s)).sound h
  case txWaitingFrameEnters => exact event_sound (takeWaitingFrame_kept (.refl s)).sound h
  case presenceIntervalExpiry => exact event_sound (presenceExpired_kept (.refl s)).sound h
  case silenceTimerExpiry => exact event_sound (silenceExpired_kept (.refl s)).sound h
  case learntLifetimeExpiry => exact event_sound (learntExpired_kept (.refl s)).sound h
  case locateWindowExpiry => exact event_sound (locateExpired_kept (.refl s)).sound h
  case bidWindowExpiry => exact event_sound (bidWindowExpired_kept (.refl s)).sound h
  case awardAnswerExpiry => exact event_sound (awardAnswerExpired_kept (.refl s)).sound h
  case bidRecordExpiry => exact event_sound (dropBid_kept (.refl s)).sound h
  case mountWatchExpiry => exact event_sound (mountWatchExpired_kept (.refl s)).sound h
  case sourcingLocal => exact event_sound (sourceWaiting_kept (.refl s)).sound h
  case orderOfferTaken => exact event_sound (takeWaitingOffer_kept (.refl s)).sound h
  case armCompletion => exact event_sound (onCompletion_kept (.refl s)).sound h
  case auditCursorStep => exact event_sound (auditStep_kept (.refl s)).sound h
  case ready => exact event_sound (onReady_kept (.refl s)).sound h
  case loadFailed => exact event_sound (onLoadFailed_kept (.refl s)).sound h
  case unloaded => exact event_sound (onUnloaded_kept (.refl s)).sound h
  case offline => exact event_sound (onOffline_kept (.refl s)).sound h
  case online => exact event_sound (onOnline_kept (.refl s)).sound h
  case loadWaitExpiry => exact event_sound (loadWaitExpired_kept (.refl s)).sound h
  case arrivalLimitExpiry => exact event_sound (arrivalExpired_kept (.refl s)).sound h
  case doneKey => exact event_sound (keyDone_kept (.refl s)).sound h
  case cannotKey => exact event_sound (keyCannot_kept (.refl s)).sound h
  case nextKey => exact event_sound (keyNext_kept (.refl s)).sound h
  case promptPostingEnters => exact event_sound (takePosting_kept (.refl s)).sound h
  case promptReminder => exact event_sound (reminded_kept (.refl s)).sound h
  case promptEscalation => exact event_sound (escalated_kept (.refl s)).sound h
  case fetchExpiry => exact event_sound (fetchExpired_kept (.refl s)).sound h
  case ringExpiry => exact event_sound (ringExpired_kept (.refl s)).sound h
  case wearHandover => exact event_sound (wearStep_kept (.refl s)).sound h
  case ownAddressHello | helloReceived | locateReceived | holdingReceived | offerReceived | bidReceived | awardReceived | acceptReceived
    | declineReceived | revokeReceived | cancelFrameReceived | progressReceived | resultReceived | fetchReceived | notHereReceived
    | depositReceived | creditReceived | promptNoticeReceived | promptClearedReceived | ackReceived =>
    exact event_sound (hear_kept (.refl s)).sound h
  all_goals exact event_sound hostCommand_sound h

/-- Every step keeps the invariants. -/
theorem step_sound {t : State} (h : step s = .next t) : Sound s t := by
  cases hp : s.pending with
  | nil => rw [step_nil hp] at h; cases h; exact (Kept.refl s).sound
  | cons c rest =>
    rw [step_cons hp] at h
    exact Sound.trans ((Kept.refl s).outside s.pins rest).sound (exec_sound h)

end

/-- Settles O4: the FIFOs gain records only while they have places. -/
theorem fifosNeverOverflow : Obligations.FifosNeverOverflow := fun _ _ hs h => (step_sound h).fifos hs

/-- Settles O5: every operation of the part keeps the places and the credit law. -/
theorem placesNeverOverflow : Obligations.PlacesNeverOverflow :=
  ⟨fun _ _ hs h => (step_sound h).places hs, fun _ _ _ hc h => (creditLaw_iff _).mpr ((step_sound h).credit ((creditLaw_iff _).mp hc))⟩

/-- Settles O6: a record is made where the accept check leaves room for its accounting record, and its drive and account change with it. -/
theorem spoolNeverOverflows : Obligations.SpoolNeverOverflows :=
  ⟨fun _ _ hs h => (step_sound h).spool hs, fun _ _ hs h => (step_sound h).mounts hs⟩

/-- Settles O7: a table is written by operations that keep its keys rising, and a volser enters where it does not stand. -/
theorem tablesStayOrdered : Obligations.TablesStayOrdered :=
  ⟨fun _ _ hs h => (step_sound h).tables hs, fun _ _ ht hv h => (step_sound h).volsers ht hv⟩

end Sys2Proof.Machine


/-! The host port: device reset, the record port, the grants, and the commands of the station. -/

namespace Sys2Proof.Machine

-- One proof at a time: proofs that wait for each other on threads of their own would reserve more stack than the check allows.
set_option Elab.async false

/-! ### Device reset -/

/-- A command's record written to an empty command FIFO stands there alone (R195). -/
def State.written (s : State) (r : CmdRec) : State := { s with host := { s.host with commands := [r], lastWrite := .taken } }

theorem writeCommand_empty {s : State} (h : s.host.commands = []) (r : CmdRec) : writeCommand r s = s.written r := by
  simp [writeCommand, h, Config.commandPlaces, State.written]

/-- A host command row on an empty command FIFO: its record is written, and taken when the grant is the command taker's (R195, R197). -/
theorem hostCommand_empty {s : State} (h : s.host.commands = []) (code : Nat) (tag : Byte) (p : List Byte) :
    let t := s.written ⟨BitVec.ofNat 8 code, tag, p⟩
    hostCommand code tag p s = if t.resetAtHead = true ∨ t.grantee = some 1 then grantPlace t else t := by
  have hh : s.host.commands.head? ≠ some ⟨BitVec.ofNat 8 code, tag, p⟩ := by simp [h]
  unfold hostCommand
  simp only [if_neg hh, writeCommand_empty h]
  exact if_congr (and_iff_right rfl) rfl rfl

/-- A RESET written to an empty command FIFO is taken at once (R204). -/
theorem hostCommand_reset {s : State} (h : s.host.commands = []) (tag : Byte) :
    hostCommand 5 tag [] s = State.resetWith s.pins s.pending :=
  (hostCommand_empty h 5 tag []).trans ((if_pos (.inl rfl)).trans (if_pos rfl))

/-- Settles O9: the rows of the pin and of RESET are the reset itself; every other row but the door's asks for the pin first. -/
theorem deviceResetAndPin : Obligations.DeviceResetAndPin := by
  refine ⟨fun _ _ _ => rfl, fun tag s hp hc => ?reset, fun _ => rfl, fun c s hp h1 h2 h3 => ?held⟩
  case reset =>
    have hr : runEvent (hostCommand 5 tag []) s = .next (hostCommand 5 tag [] s) :=
      runEvent_of_settled hp (by rw [hostCommand_reset hc]; exact resetWith_settled ..)
    rw [hostCommand_reset hc] at hr
    exact hr
  case held =>
    obtain ⟨p, h, rfl, -⟩ | ⟨rfl, -⟩ | ⟨o, rfl, -⟩ | ⟨f, k, he⟩ := exec_shape c s
    · exact absurd rfl (h1 p h)
    · exact absurd rfl h2
    · exact absurd rfl (h3 o)
    · rw [he, hp]; rfl

/-- Settles O10: each block's reset record shows its values. -/
theorem resetValues : Obligations.ResetValues := by
  intro p c s
  refine ⟨⟨rfl, rfl, rfl, rfl, rfl, rfl, rfl⟩, ⟨rfl, rfl⟩, ⟨rfl, rfl, rfl, rfl, rfl, fun _ => rfl⟩, ⟨rfl, rfl, rfl⟩, ⟨rfl, ?_, fun r hr => ?_⟩,
    ⟨rfl, rfl, rfl, rfl, rfl, rfl, rfl⟩, fun d => ?_, ⟨rfl, rfl, rfl, rfl, rfl, rfl, rfl⟩, fun _ => rfl, fun _ => rfl, rfl, rfl, rfl⟩
  · exact List.length_replicate
  · cases List.eq_of_mem_replicate hr
    exact ⟨rfl, rfl, rfl, rfl⟩
  · cases d
    all_goals exact ⟨rfl, rfl, rfl, rfl, rfl, rfl, rfl⟩

/-! ### The record port -/

/-- Settles O11: the rows are `writeCommand` and `readReport`, which touch the host port only. -/
theorem recordPort : Obligations.RecordPort := by
  intro s hs hp
  have settled {f : State → State} (h : f s = { s with host := (f s).host, acct := (f s).acct }) : runEvent f s = .next (f s) :=
    runEvent_of_settled hp ((settled_of_host_acct h).trans hs)
  refine ⟨fun r => ?_, fun r rest h => ?_, fun h => ?_, ?_, fun tag a n r => ⟨⟨rfl, rfl⟩, ⟨rfl, rfl⟩, rfl, rfl⟩⟩
  · refine (settled (f := writeCommand r) ?_).trans rfl
    unfold writeCommand
    split <;> rfl
  · have hf : readReport s = { s with host := { s.host with reports := rest, lastRead := .record r } } := by rw [readReport, h]
    exact (settled (f := readReport) (by rw [hf])).trans (by rw [hf])
  · have hf : readReport s = { s with host := { s.host with lastRead := .isEmpty } } := by rw [readReport, h]
    exact (settled (f := readReport) (by rw [hf])).trans (by rw [hf])
  · simp [State.attention]

/-! ### The grant of a report place -/

theorem find?_eq_some_iff_of_pairwise {α : Type} {d : α → Nat} {q : α → Bool} {l : List α} {k : α}
    (h : l.Pairwise fun a b => d a < d b) :
    l.find? q = some k ↔ k ∈ l ∧ q k = true ∧ ∀ j ∈ l, q j = true → d k ≤ d j := by
  induction l with
  | nil => simp
  | cons x l ih =>
    rw [List.pairwise_cons] at h
    obtain ⟨hx, hl⟩ := h
    cases hq : q x with
    | false => simp [hq, ih hl]; grind
    | true =>
      rw [List.find?_cons, hq]
      constructor
      · rintro ⟨⟩
        exact ⟨.head _, hq, fun j hj _ => (List.mem_cons.mp hj).elim (fun e => e ▸ le_refl _) fun hj => (hx j hj).le⟩
      · rintro ⟨hk, -, hle⟩
        obtain rfl | hk := List.mem_cons.mp hk
        · rfl
        · exact absurd (hle x (.head _) hq) (hx k hk).not_ge

/-- How far a requester stands after the pointer in the rotation (R197). -/
def rotationDistance (p k : Nat) : Nat := (k + 7 - p) % 8

theorem rotation_pairwise : ∀ p ≤ 8, (rotation p).Pairwise fun a b => rotationDistance p a < rotationDistance p b := by decide

theorem mem_rotation (p k : Nat) : k ∈ rotation p ↔ 1 ≤ k ∧ k ≤ 8 := by
  simp only [rotation, List.mem_append, List.mem_filter, List.mem_cons, List.not_mem_nil, or_false, decide_eq_true_eq]
  omega

/-- Settles O12: the rotation lists the eight requesters by their distance from the pointer, and the grant goes to the first that waits. -/
theorem grantTakesNextInRotation : Obligations.GrantTakesNextInRotation := by
  intro s k hp
  have hroom : 0 < s.reportRoom ↔ s.host.reports.length < 32 := by
    simp only [State.reportRoom, Config.reportPlaces]
    omega
  have hfind := find?_eq_some_iff_of_pairwise (q := s.waits) (k := k) (rotation_pairwise s.host.pointer hp)
  simp only [mem_rotation] at hfind
  unfold State.grantee
  split
  · next hr =>
    rw [hfind]
    exact ⟨fun ⟨⟨h1, h8⟩, hw, hle⟩ => ⟨hroom.mp hr, h1, h8, hw, fun j hj1 hj8 => hle j ⟨hj1, hj8⟩⟩,
      fun ⟨_, h1, h8, hw, hle⟩ => ⟨⟨h1, h8⟩, hw, fun j hj => hle j hj.1 hj.2⟩⟩
  · next hr => exact ⟨nofun, fun h => absurd (hroom.mpr h.1) hr⟩

/-- A host command row is `hostCommand` of its code, tag and payload. -/
theorem exec_hostRow {i : Instr} {code : Nat} {tag : Byte} {p : List Byte} (hi : hostRow i = some (code, tag, p)) (s : State) :
    exec i s = runEvent (hostCommand code tag p) s := by
  cases i
  all_goals
    simp only [hostRow, reduceCtorEq, Option.some.injEq, Prod.mk.injEq] at hi
  all_goals
    obtain ⟨rfl, rfl, rfl⟩ := hi
    rfl

theorem hostRow_code {i : Instr} {code : Nat} {tag : Byte} {p : List Byte} (hi : hostRow i = some (code, tag, p)) : code ≤ 20 := by
  cases i
  all_goals
    simp only [hostRow, reduceCtorEq, Option.some.injEq, Prod.mk.injEq] at hi
  all_goals omega

/-- A code of the table keeps its value in a command record's byte. -/
theorem hostRow_byte {i : Instr} {code : Nat} {tag : Byte} {p : List Byte} (hi : hostRow i = some (code, tag, p)) :
    (BitVec.ofNat 8 code).toNat = code := by
  have := hostRow_code hi
  rw [BitVec.toNat_ofNat]
  omega

theorem sweepOrigins_eq (s : State) : sweepOrigins s = { s with neg := (sweepOrigins s).neg } := rfl

theorem updOrigin_eq (id : ReqId) (f : OriginRec → OriginRec) (s : State) : updOrigin id f s = { s with neg := (updOrigin id f s).neg } := rfl

theorem exec_reportPlaceGrant (s : State) : exec .reportPlaceGrant s = runEvent grantPlace s := rfl

/-- A grant to a requester, in a settled state, when what it leaves is settled (R197). -/
theorem exec_grant {s t : State} {k : Nat} (hp : s.pins.resetHeld = false) (hr : s.resetAtHead = false) (hg : s.grantee = some k)
    (ht : grantTo k s = t) (hs : t.settled = true) : exec .reportPlaceGrant s = .next t := by
  have hgrant : grantPlace s = t := by
    rw [grantPlace, hr, hg]
    exact ht
  rw [exec_reportPlaceGrant, runEvent_of_settled hp (by rw [hgrant, hs]), hgrant]

/-- A notice other than a MOUNT RESULT has nothing more to do when it enters the report FIFO (R49). -/
theorem noticeEntered_other {n : Notice} (h : ∀ id tag v e, n ≠ .mountResult id tag v e) (s : State) : noticeEntered n s = s := by
  cases n
  case mountResult => exact absurd rfl (h _ _ _ _)
  all_goals rfl

/-- The grant to an owner of notices. -/
theorem grantTo_notice {s t : State} {k : Nat} {n : Notice} (hk : k ≠ 1) (h : (setPointer k s).takeNotice k = some (n, t)) :
    grantTo k s = noticeEntered n (pushReport (.notice n) t) := by
  unfold grantTo
  simp only [if_neg hk, h]

/-- Settles O13: `grantPlace` moves the oldest notice of the owner it goes to, or takes the command at the head. -/
theorem grantMovesOldestNotice : Obligations.GrantMovesOldestNotice := by
  refine ⟨fun s r cs hp hc h5 he => ?reset, fun s n rest hs hp hr => ?grant⟩
  case reset =>
    have hh : s.resetAtHead = true := by simp [State.resetAtHead, hc, CmdRec.isReset, h5, he]
    have hg : grantPlace s = State.resetWith s.pins s.pending := if_pos hh
    rw [exec_reportPlaceGrant, runEvent_of_settled hp (by rw [hg]; exact resetWith_settled ..), hg]
  case grant =>
    have same {t : State} (h1 : t.seq.arm = s.seq.arm) (h2 : t.seq.inArm = s.seq.inArm) (h3 : t.seq.queue = s.seq.queue)
        (h4 : t.prm = s.prm) : t.settled = true :=
      (settled_congr h1 h2 h3 (by rw [h4]) (by rw [h4]) (by rw [h4]) (by rw [h4]) (by rw [h4])).trans hs
    refine ⟨fun hg hn id tag v e he => ?_, fun hg hn ho => ?_, fun hg hn ho => ?_, fun hg hn ho => ?_, fun hg hn ho => ?_, fun hg hn ho => ?_,
      fun hg hn ho => ?_, fun hg => ?_, fun r cs hg hc => ?_⟩
    · refine exec_grant hp hr hg ((grantTo_notice (n := n) (by decide) (by simp only [State.takeNotice, setPointer, hn]; rfl)).trans ?_)
        (same rfl rfl rfl rfl)
      rw [he]
      rfl
    iterate 6
      refine exec_grant hp hr hg ((grantTo_notice (n := n) (by decide) (by simp only [State.takeNotice, setPointer, hn]; rfl)).trans
        (noticeEntered_other ho _)) (same rfl rfl rfl rfl)
    · have hgrant : grantPlace s = s := by rw [grantPlace, hr, hg]; rfl
      rw [exec_reportPlaceGrant, runEvent_of_settled hp (by rw [hgrant, hs]), hgrant]
    · have htake : grantTo 1 s = takeCommand r { s with host := { s.host with commands := cs, pointer := 1 } } := by
        simp only [grantTo, if_true, takeFirstCommand, setPointer, hc]
      refine ⟨fun hf => ?_, fun hf ht => ?_, fun i code hi hcode hcs hw hready => ?_⟩
      · refine exec_grant hp hr hg (htake.trans ?_) (same rfl rfl rfl rfl)
        have : formFits r.code.toNat r.payload = false := by
          obtain h0 | h20 | hf := hf
          · rw [h0]; rfl
          · unfold formFits; split <;> first | omega | rfl
          · exact hf
        simp only [takeCommand, this]
        rfl
      · refine exec_grant hp hr hg (htake.trans ?_) (same rfl rfl rfl rfl)
        simp only [takeCommand, hf, ht]
        rfl
      · have hreset : CmdRec.isReset ⟨BitVec.ofNat 8 code, r.tag, r.payload⟩ = false := by
          simpa only [State.resetAtHead, hc, List.head?_cons, Option.map_some, Option.getD_some, ← hcode] using hr
        have hgrant : grantPlace s = hostCommand code r.tag r.payload { s with host := { s.host with commands := [] } } := by
          rw [hostCommand_ready hready _ _ _ hreset, grantPlace, hr, hg]
          simp only [Bool.false_eq_true, if_false, htake, hcs, ← hcode, State.opened, ← hw]
        rw [exec_reportPlaceGrant, exec_hostRow hi]
        simp only [runEvent, hgrant, hp, Bool.false_eq_true, if_false]

/-! ### The commands of the station -/

theorem takenIn_reset (st : StationState) : takenIn 5 st = true := by cases st <;> rfl

/-- Settles O14: the form is checked first, then the station state; RESET is taken in every state. -/
theorem badFormAndWrongState : Obligations.BadFormAndWrongState := by
  intro i code tag p s hi hs h
  have hb := hostRow_byte hi
  have five : (BitVec.ofNat 8 code : Byte) = 5 → code = 5 := fun e => by rw [← hb, e]; rfl
  refine ⟨fun hf => ?_, fun hf hno => ?_⟩
  · have ht : takeCommand ⟨BitVec.ofNat 8 code, tag, p⟩ s.opened = s.opened.answered tag (.badField none) := by
      simp only [takeCommand, hb, hf]
      rfl
    rw [hostRow_next h hi ?_ (by rw [ht, answered_settled, opened_settled, hs]), ht]
    by_cases hc : code = 5
    · subst hc
      simpa [CmdRec.isReset, formFits] using hf
    · rw [CmdRec.isReset, decide_eq_false (mt five hc), Bool.false_and]
  · have ht : takeCommand ⟨BitVec.ofNat 8 code, tag, p⟩ s.opened = s.opened.answered tag .stateRefused := by
      simp only [takeCommand, hb, hf, opened_state, hno]
      rfl
    rw [hostRow_next h hi ?_ (by rw [ht, answered_settled, opened_settled, hs]), ht]
    by_cases hc : code = 5
    · subst hc
      rw [takenIn_reset] at hno
      cases hno
    · rw [CmdRec.isReset, decide_eq_false (mt five hc), Bool.false_and]

end Sys2Proof.Machine


/-! The commands of the station: CONFIGURE, START, QUIESCE and RESUME, and the commands that only read. -/

namespace Sys2Proof.Machine

-- One proof at a time: proofs that wait for each other on threads of their own would reserve more stack than the check allows.
set_option Elab.async false

/-! ### CONFIGURE -/

theorem fitted_fst (lo hi n : Nat) : (fitted lo hi n).1 = clampTo lo hi n := rfl

theorem clampTo_of_mem {lo hi n : Nat} (hl : lo ≤ n) (hh : n ≤ hi) : clampTo lo hi n = n := by unfold clampTo; omega

theorem clampTo_eq_iff {lo hi : Nat} (h : lo ≤ hi) (n : Nat) : clampTo lo hi n = n ↔ lo ≤ n ∧ n ≤ hi := by unfold clampTo; omega

/-- A CONFIGURE item answers TAKEN when each value is stored as carried, and CLAMPED with the values stored otherwise (R198). -/
theorem stored_eq (l : List (Nat × Bool)) : stored l = if ∀ f ∈ l, f.2 = false then .taken else .clamped (l.map (·.1)) := by
  by_cases h : ∀ f ∈ l, f.2 = false
  · rw [if_pos h, stored, List.any_eq_false.mpr (by simpa using h)]
    rfl
  · rw [if_neg h, stored, List.any_eq_true.mpr (by simpa using h)]
    rfl

theorem fitted_snd {lo hi : Nat} (h : lo ≤ hi) (n : Nat) : (fitted lo hi n).2 = false ↔ lo ≤ n ∧ n ≤ hi := by
  rw [fitted, bne_eq_false_iff_eq, clampTo_eq_iff h]

theorem stored_one {lo hi : Nat} (h : lo ≤ hi) (n : Nat) :
    stored [fitted lo hi n] = if lo ≤ n ∧ n ≤ hi then .taken else .clamped [clampTo lo hi n] := by
  rw [stored_eq]
  refine if_congr ?_ rfl rfl
  rw [List.forall_mem_singleton, fitted_snd h]

/-- An item of CONFIGURE writes the settings and the drives only. -/
theorem configureItem_eq (k : Keyword) (v : List Byte) (s : State) :
    (configureItem k v s).state = { s with host := (configureItem k v s).state.host, mnt := (configureItem k v s).state.mnt } := by
  unfold configureItem
  split
  case h_8 => unfold driveItem; split <;> [rfl; split <;> rfl]
  case h_10 | h_11 => unfold mouthItem; split <;> rfl
  case h_12 => unfold rateItem; split <;> rfl
  case h_16 => unfold timerItem; split <;> rfl
  all_goals rfl

section
variable {s : State} {tag : Byte}

/-- The row of CONFIGURE, with its item's keyword found (R198). -/
theorem exec_configure (hs : s.settled = true) (h : s.ready = true) (hc : s.host.state = .config) {k1 k2 n : Byte} {k : Keyword} {v : List Byte}
    (hk : Keyword.ofLetters k1.toNat k2.toNat = some k) (hn : v.length = n.toNat) :
    exec (.configure tag (k1 :: k2 :: n :: v)) s
      = .next ((configureItem k v s.opened).state.answered tag (configureItem k v s.opened).answer) := by
  refine hostRow_runs (code := 1) h rfl rfl (decide_eq_true hn) (by rw [hc]; rfl) ?_ ?_
  · show cmdConfigure tag (k1 :: k2 :: n :: v) s.opened = _
    simp only [cmdConfigure, hk]
    rfl
  · rw [answered_settled, configureItem_eq]
    exact (settled_congr rfl rfl rfl rfl rfl rfl rfl rfl).trans hs

/-- A one-quantity item (R198). -/
theorem quantityItem_eq {lo hi : Nat} (h : lo ≤ hi) (put : Nat → Settings → Settings) (n : Nat) (s : State) :
    quantityItem lo hi put n s = ⟨if lo ≤ n ∧ n ≤ hi then .taken else .clamped [clampTo lo hi n], updSettings (put (clampTo lo hi n)) s⟩ :=
  congrArg (ItemResult.mk · _) (stored_one h n)

/-- Settles O15: each quantity is a one-quantity item of its keyword. -/
theorem configureQuantities : Obligations.ConfigureQuantities := by
  intro s tag hs h hc
  have item {k1 k2 n : Byte} {v : List Byte} (k : Keyword) (hk : Keyword.ofLetters k1.toNat k2.toNat = some k) (hn : v.length = n.toNat) :=
    exec_configure (tag := tag) hs h hc hk hn
  refine ⟨fun a => (item .kc rfl rfl).trans ?_, fun a => (item .kt rfl rfl).trans ?_, fun a b => (item .gp rfl rfl).trans ?_,
    fun a b => (item .hp rfl rfl).trans ?_, fun a b => (item .mp rfl rfl).trans ?_, fun a b => (item .rp rfl rfl).trans ?_,
    fun a => (item .hs rfl rfl).trans ?_, fun a b => (item .ms rfl rfl).trans ?_, fun a b => (item .rs rfl rfl).trans ?_⟩
  all_goals
    rw [configureItem, quantityItem_eq (by decide)]

theorem clampTo_grid (n : Nat) : clampTo 0 63 n = min n 63 := by unfold clampTo; omega

theorem clampTo_capacity (n : Nat) : clampTo 1 6 n = if n = 0 then 1 else min n 6 := by unfold clampTo; split <;> omega

/-- What a CONFIGURE of a grid point answers (R198). -/
theorem stored_point (c t : Nat) : stored [fitted 0 63 c, fitted 0 63 t]
    = if 63 < c ∨ 63 < t then .clamped [min c 63, min t 63] else .taken := by
  rw [stored_eq, ← ite_not]
  refine if_congr ?_ ?_ rfl
  · simp only [List.forall_mem_cons, fitted_snd (Nat.zero_le 63), List.not_mem_nil, false_imp_iff, implies_true, and_true]
    omega
  · simp only [List.map_cons, List.map_nil, fitted_fst, clampTo_grid]

/-- What a CONFIGURE of a lane mouth answers (R198). -/
theorem stored_mouth (c t n : Nat) : stored [fitted 0 63 c, fitted 0 63 t, fitted 1 6 n]
    = if (63 < c ∨ 63 < t) ∨ n = 0 ∨ 6 < n then .clamped [min c 63, min t 63, if n = 0 then 1 else min n 6] else .taken := by
  rw [stored_eq, ← ite_not]
  refine if_congr ?_ ?_ rfl
  · simp only [List.forall_mem_cons, fitted_snd (Nat.zero_le 63), fitted_snd (show 1 ≤ 6 by decide), List.not_mem_nil, false_imp_iff,
      implies_true, and_true]
    omega
  · simp only [List.map_cons, List.map_nil, fitted_fst, clampTo_grid, clampTo_capacity]

theorem pointItem_eq (put : Point → Settings → Settings) (c t : Nat) (s : State) : pointItem put c t s
    = ⟨if 63 < c ∨ 63 < t then .clamped [min c 63, min t 63] else .taken, updSettings (put ⟨min c 63, min t 63⟩) s⟩ := by
  rw [pointItem, stored_point, clampTo_grid, clampTo_grid]

theorem mouthItem_eq (d : Side) (put : Mouth → Settings → Settings) (c t n : Nat) (s : State) : mouthItem d put c t n s
    = if s.fitted d then
        ⟨if (63 < c ∨ 63 < t) ∨ n = 0 ∨ 6 < n then .clamped [min c 63, min t 63, if n = 0 then 1 else min n 6] else .taken,
          updSettings (put ⟨⟨min c 63, min t 63⟩, if n = 0 then 1 else min n 6⟩) s⟩
      else ⟨.badField (some d.code), s⟩ := by
  rw [mouthItem, stored_mouth, clampTo_grid, clampTo_grid, clampTo_capacity]

theorem driveItem_eq (d g c t : Nat) (s : State) : driveItem d g c t s
    = if s.mnt.drives.length ≤ d then ⟨.badField (some d), s⟩
      else if 15 < g then ⟨.badField (some g), s⟩
      else ⟨if 63 < c ∨ 63 < t then .clamped [min c 63, min t 63] else .taken,
        updDrive d (fun r => { r with group := some g, position := some ⟨min c 63, min t 63⟩ }) s⟩ := by
  rw [driveItem, stored_point, clampTo_grid, clampTo_grid]

/-- Settles O16: a point and a capacity are stored as clamped, and the answer says whether that changed them. -/
theorem configurePlaces : Obligations.ConfigurePlaces := by
  refine ⟨fun s tag c t n d g hs h hc h1 h2 h3 h4 => ?within, fun s tag c t n d g hs h hc => ?beyond⟩
  case within =>
    have hg : ¬ (63 < c.toNat ∨ 63 < t.toNat) := by omega
    have hm : ¬ ((63 < c.toNat ∨ 63 < t.toNat) ∨ n.toNat = 0 ∨ 6 < n.toNat) := by omega
    have hn : ¬ n.toNat = 0 := by omega
    refine ⟨?_, ?_, ?_, ?_, ?_⟩
    · rw [exec_configure hs h hc (k := .pk) rfl rfl]
      simp only [configureItem, pointItem_eq, if_neg hg, Nat.min_eq_left h1, Nat.min_eq_left h2]
    · rw [exec_configure hs h hc (k := .cl) rfl rfl]
      simp only [configureItem, pointItem_eq, if_neg hg, Nat.min_eq_left h1, Nat.min_eq_left h2]
    · rw [exec_configure hs h hc (k := .wl) rfl rfl]
      simp only [configureItem, mouthItem_eq, if_neg hm, if_neg hn, Nat.min_eq_left h1, Nat.min_eq_left h2, Nat.min_eq_left h4]
      cases hf : s.fitted .west
      all_goals simp only [show s.opened.fitted .west = s.fitted .west from rfl, hf, if_true, Bool.false_eq_true, if_false] <;> rfl
    · rw [exec_configure hs h hc (k := .el) rfl rfl]
      simp only [configureItem, mouthItem_eq, if_neg hm, if_neg hn, Nat.min_eq_left h1, Nat.min_eq_left h2, Nat.min_eq_left h4]
      cases hf : s.fitted .east
      all_goals simp only [show s.opened.fitted .east = s.fitted .east from rfl, hf, if_true, Bool.false_eq_true, if_false] <;> rfl
    · rw [exec_configure hs h hc (k := .dv) rfl rfl]
      simp only [configureItem, driveItem_eq, if_neg hg, Nat.min_eq_left h1, Nat.min_eq_left h2, opened_mnt]
      split
      · rfl
      · split <;> rfl
  case beyond =>
    refine ⟨fun hg => ⟨?_, ?_, fun hd h15 => ?_⟩, fun hm => ⟨fun hf => ?_, fun hf => ?_⟩⟩
    · rw [exec_configure hs h hc (k := .pk) rfl rfl]
      simp only [configureItem, pointItem_eq, if_pos hg]
    · rw [exec_configure hs h hc (k := .cl) rfl rfl]
      simp only [configureItem, pointItem_eq, if_pos hg]
    · rw [exec_configure hs h hc (k := .dv) rfl rfl]
      simp only [configureItem, driveItem_eq, if_pos hg, opened_mnt, if_neg hd.not_ge, if_neg h15.not_gt]
    · rw [exec_configure hs h hc (k := .wl) rfl rfl]
      simp only [configureItem, mouthItem_eq, if_pos hm, show s.opened.fitted .west = true from hf, if_true]
    · rw [exec_configure hs h hc (k := .el) rfl rfl]
      simp only [configureItem, mouthItem_eq, if_pos hm, show s.opened.fitted .east = true from hf, if_true]

theorem spoolItem_eq (high low : Nat) (s : State) :
    let h := max 16 (min high 480)
    let l := min low (h - 16)
    spoolItem high low s = ⟨if high = h ∧ low = l then .taken else .clamped [h, l],
      updSettings (fun c => { c with high := h, low := l }) s⟩ := by
  have hh : clampTo 16 480 high = max 16 (min high 480) := by rw [clampTo, min_comm]
  have hl (x : Nat) : clampTo 0 x low = min low x := by unfold clampTo; omega
  simp only [spoolItem, stored_eq, List.map_cons, List.map_nil, fitted_fst, hh, hl]
  congr 1
  refine if_congr ?_ rfl rfl
  simp only [List.forall_mem_cons, fitted_snd (show 16 ≤ 480 by decide), fitted_snd (Nat.zero_le _), List.not_mem_nil, false_imp_iff,
    implies_true, and_true]
  omega

theorem wearItem_eq (a b c e : Nat) (s : State) :
    let w := max 1 (min a 16)
    let t := max 1 (min b 10000)
    let k := max 1 (min c 3)
    wearItem a b c e s = ⟨if a = w ∧ b = t ∧ c = k then .taken else .clamped [w, t, k, e],
      updSettings (fun x => { x with window := w, threshold := t, streak := k, passLimit := e }) s⟩ := by
  have hc (x y : Nat) : clampTo 1 x y = max 1 (min y x) := by rw [clampTo, min_comm]
  simp only [wearItem, stored_eq, List.map_cons, List.map_nil, fitted_fst, hc]
  congr 1
  refine if_congr ?_ rfl rfl
  simp only [List.forall_mem_cons, fitted_snd (show 1 ≤ 16 by decide), fitted_snd (show 1 ≤ 10000 by decide),
    fitted_snd (show 1 ≤ 3 by decide), List.not_mem_nil, false_imp_iff, implies_true, and_true]
  omega

theorem timerRange_le {k lo hi : Nat} (h : timerRange k = some (lo, hi)) : lo ≤ hi := by
  unfold timerRange at h
  split at h
  all_goals
    simp only [reduceCtorEq, Option.some.injEq, Prod.mk.injEq] at h
  all_goals omega

theorem timerItem_eq {k lo hi : Nat} (h : timerRange k = some (lo, hi)) (n : Nat) (s : State) : timerItem k n s
    = ⟨if lo ≤ n ∧ n ≤ hi then .taken else .clamped [clampTo lo hi n],
      updSettings (fun c => { c with timers := c.timers.put k (clampTo lo hi n) }) s⟩ := by
  simp only [timerItem, h, stored_one (timerRange_le h)]

/-- The row of CONFIGURE with a keyword that names no item (R198). -/
theorem exec_configure_unknown (hs : s.settled = true) (h : s.ready = true) (hc : s.host.state = .config) {k1 k2 n : Byte} {v : List Byte}
    (hk : Keyword.ofLetters k1.toNat k2.toNat = none) (hn : v.length = n.toNat) :
    exec (.configure tag (k1 :: k2 :: n :: v)) s = .next (s.opened.answered tag .unknownItem) := by
  refine hostRow_runs (code := 1) h rfl rfl (decide_eq_true hn) (by rw [hc]; rfl) ?_ (by rw [answered_settled, opened_settled, hs])
  show cmdConfigure tag (k1 :: k2 :: n :: v) s.opened = _
  simp only [cmdConfigure, hk]
  rfl

/-- Settles O17: each item of its keyword, with its quantities within their ranges and beyond them. -/
theorem configureTables : Obligations.ConfigureTables := by
  intro s tag a b c d e f hs h hc o
  have item {k1 k2 n : Byte} {v : List Byte} (k : Keyword) (hk : Keyword.ofLetters k1.toNat k2.toNat = some k) (hn : v.length = n.toNat) :=
    exec_configure (tag := tag) hs h hc hk hn
  refine ⟨(item .rt rfl rfl).trans ?rate, fun h1 h2 h3 => (item .sp rfl rfl).trans ?spoolIn,
    fun h1 h2 h3 h4 h5 h6 => (item .wr rfl rfl).trans ?wearIn, fun lo hi hr h1 h2 => (item .tm rfl rfl).trans ?timerIn,
    fun hn => (item .sp rfl rfl).trans ?spoolOut, fun hn => (item .wr rfl rfl).trans ?wearOut,
    fun lo hi hr => ⟨fun hn => (item .tm rfl rfl).trans ?timerLow, fun hn => (item .tm rfl rfl).trans ?timerHigh⟩,
    fun hr => (item .tm rfl rfl).trans ?timerNone, fun hk => exec_configure_unknown hs h hc hk rfl⟩
  case rate =>
    rw [configureItem, rateItem]
    split <;> rfl
  case spoolIn =>
    have e1 : max 16 (min (num16 a b) 480) = num16 a b := by omega
    rw [configureItem, spoolItem_eq, e1, if_pos ⟨rfl, by omega⟩, min_eq_left h3]
  case wearIn =>
    have e1 : max 1 (min a.toNat 16) = a.toNat := by omega
    have e2 : max 1 (min (num16 b c) 10000) = num16 b c := by omega
    have e3 : max 1 (min d.toNat 3) = d.toNat := by omega
    rw [configureItem, wearItem_eq, e1, e2, e3, if_pos ⟨rfl, rfl, rfl⟩]
  case timerIn => rw [configureItem, timerItem_eq hr, if_pos ⟨h1, h2⟩, clampTo_of_mem h1 h2]
  case spoolOut => rw [configureItem, spoolItem_eq, if_neg (by grind)]
  case wearOut => rw [configureItem, wearItem_eq, if_neg (by grind)]
  case timerLow =>
    have hl : clampTo lo hi (num16 b c) = lo := by have := timerRange_le hr; unfold clampTo; omega
    rw [configureItem, timerItem_eq hr, hl, if_neg (by omega)]
  case timerHigh =>
    have hh : clampTo lo hi (num16 b c) = hi := by have := timerRange_le hr; unfold clampTo; omega
    rw [configureItem, timerItem_eq hr, hh, if_neg (by omega)]
  case timerNone =>
    rw [configureItem, timerItem, hr]

/-! ### START, QUIESCE and RESUME -/

/-- A host command that only answers (R196). -/
theorem hostRow_answers (hs : s.settled = true) (h : s.ready = true) {i : Instr} {code : Nat} {p : List Byte} {a : Answer}
    (hi : hostRow i = some (code, tag, p)) (hr : CmdRec.isReset ⟨BitVec.ofNat 8 code, tag, p⟩ = false)
    (hf : formFits (BitVec.ofNat 8 code).toNat p = true) (hst : takenIn (BitVec.ofNat 8 code).toNat s.host.state = true)
    (ht : runCommand (BitVec.ofNat 8 code).toNat tag p s.opened = s.opened.answered tag a) :
    exec i s = .next (s.opened.answered tag a) :=
  hostRow_runs h hi hr hf hst ht (by rw [answered_settled, opened_settled, hs])

/-- Settles O18: START offers the first HELLO to an empty transmit queue, or answers what is missing. -/
theorem startStation_or_incomplete : Obligations.StartStation := by
  intro s tag hs h hc
  have taken : takenIn 2 s.host.state = true := by rw [hc]; rfl
  refine ⟨?complete, fun hi => hostRow_answers (code := 2) hs h rfl rfl rfl taken ?incomplete⟩
  case complete =>
    intro hi hq hw t
    have hroom : t.lineRoom = true := by
      show (_ && (decide (s.line.queue.length < Config.transmitPlaces) && s.line.waiting.isEmpty)) = true
      rw [hq, hw]
      rfl
    have hpend : t.helloPending = false := by
      simp [State.helloPending, t, hq, hw]
    have hstart : Machine.startStation s.opened = t.queueing none (.hello t.helloNow) := by
      have hoffer := offerTx_room hroom none (.hello t.helloNow) (fun _ => rfl) (by simp)
      have hp : ¬ t.helloPending = true := by rw [hpend]; decide
      exact (if_neg hp).trans hoffer
    refine hostRow_runs (code := 2) h rfl rfl rfl taken (t := (t.queueing none (.hello t.helloNow)).answered tag (.startTaken s.host.straps)) ?_ ?_
    · show cmdStart tag s.opened = _
      rw [cmdStart, if_pos (show s.opened.itemsComplete = true from hi), hstart]
      rfl
    · rw [answered_settled, queueing_settled]
      exact (settled_congr rfl rfl rfl rfl rfl rfl rfl rfl).trans hs
  case incomplete =>
    show cmdStart tag s.opened = _
    rw [cmdStart, if_neg (show ¬ s.opened.itemsComplete = true from fun e => Bool.false_ne_true (hi.symm.trans e))]
    rfl

/-- Settles O19: the two commands write the station state. -/
theorem quiesceAndResume : Obligations.QuiesceAndResume := by
  refine fun s tag hs h => ⟨fun hc => ?_, fun hc => ?_⟩
  · exact hostRow_runs (code := 3) h rfl rfl rfl (by rw [hc]; rfl) rfl ((settled_congr rfl rfl rfl rfl rfl rfl rfl rfl).trans hs)
  · exact hostRow_runs (code := 4) h rfl rfl rfl (by rw [hc]; rfl) rfl ((settled_congr rfl rfl rfl rfl rfl rfl rfl rfl).trans hs)

/-! ### The commands that only read -/

theorem slotFits_of_lt {n : Nat} (h : n < 4096) : slotFits n = true := decide_eq_true h

/-- Settles O20: each answers from the state as it stands. -/
theorem readingCommandsOnlyAnswer : Obligations.ReadingCommandsOnlyAnswer := by
  intro s tag hs h
  have taken6 : takenIn 6 s.host.state = true := by cases s.host.state <;> rfl
  have taken9 : takenIn 9 s.host.state = true := by cases s.host.state <;> rfl
  have taken12 : takenIn 12 s.host.state = true := by cases s.host.state <;> rfl
  have taken19 : takenIn 19 s.host.state = true := by cases s.host.state <;> rfl
  refine ⟨⟨?_, ?_, ?_, rfl, rfl⟩, fun a b hab => ?_, fun a b c d e f hv => ?_, fun n => ?_⟩
  · exact hostRow_answers (code := 6) hs h rfl rfl rfl taken6 rfl
  · exact hostRow_answers (code := 6) hs h rfl rfl rfl taken6 rfl
  · exact hostRow_answers (code := 6) hs h rfl rfl rfl taken6 rfl
  · refine hostRow_answers (code := 9) hs h rfl rfl rfl taken9 ?_
    show cmdDirRead tag (num16 a b) s.opened = _
    rw [cmdDirRead, if_pos (slotFits_of_lt hab), State.entry, opened_dir]
    cases tableGet s.dir.catalog (num16 a b) <;> rfl
  · refine hostRow_answers (code := 12) hs h rfl rfl rfl taken12 ?_
    show cmdDirSearch tag (volserOf a b c d e f) s.opened = _
    rw [cmdDirSearch, if_pos hv, State.lookup, State.homeOf, State.learntOf, opened_dir]
    cases s.dir.catalog.find? fun x => x.2.volser = volserOf a b c d e f with
    | some x => rfl
    | none =>
      cases s.dir.learnt.find? fun x => x.2.volser = volserOf a b c d e f with
      | some x => rfl
      | none => rfl
  · exact hostRow_answers (code := 19) hs h rfl rfl rfl taken19 rfl

end
end Sys2Proof.Machine


/-! The commands on the directory, the drives, the lanes, the audit and the arm. -/

namespace Sys2Proof.Machine

-- One proof at a time: proofs that wait for each other on threads of their own would reserve more stack than the check allows.
set_option Elab.async false

section
variable {s : State} {tag : Byte}

/-! ### DIR WRITE -/

theorem ReelState.busy_iff (x : ReelState) : x.busy = true ↔ x = .out ∨ x = .retiring := by cases x <;> simp [ReelState.busy]

/-- The slot that DIR WRITE names is busy (R21). -/
theorem namedBusy_iff (s : State) (slot : Nat) :
    (s.entry slot).any (fun e => e.state.busy) = true ↔ ∃ e, s.entry slot = some e ∧ (e.state = .out ∨ e.state = .retiring) := by
  simp only [Option.any_eq_true, ReelState.busy_iff]

/-- The slot that holds a volser, while that is busy (R21). -/
def State.heldBusy (s : State) (v : Volser) : Option Nat :=
  match s.homeOf v with
  | some (other, e) => if e.state.busy then some other else none
  | none => none

theorem heldBusy_iff (s : State) (v : Volser) (x : Nat) :
    s.heldBusy v = some x ↔ ∃ e, s.homeOf v = some (x, e) ∧ (e.state = .out ∨ e.state = .retiring) := by
  unfold State.heldBusy
  split
  · next other e h =>
    rw [h]
    simp only [Option.ite_none_right_eq_some, Option.some.injEq, Prod.mk.injEq, ReelState.busy_iff]
    constructor
    · rintro ⟨hb, rfl⟩
      exact ⟨e, ⟨rfl, rfl⟩, hb⟩
    · rintro ⟨_, ⟨rfl, rfl⟩, hb⟩
      exact ⟨hb, rfl⟩
  · next h => simp [h]

/-- The lower of the numbers there are. -/
def lowerOf (x y : Option Nat) : Option Nat :=
  match x, y with
  | some a, some b => some (min a b)
  | some a, none => some a
  | none, b => b

theorem busyFor_eq (s : State) (slot : Nat) (v : Volser) : s.busyFor slot v
    = if (s.entry slot).any fun e => e.state.busy then some (((s.heldBusy v).map (min slot)).getD slot) else s.heldBusy v := by
  have hboth : s.busyFor slot v = lowerOf (if (s.entry slot).any fun e => e.state.busy then some slot else none) (s.heldBusy v) := rfl
  rw [hboth]
  split
  all_goals cases s.heldBusy v <;> rfl

theorem wearOf_clearWear_same (slot : Nat) (s : State) : (clearWear slot s).wearOf slot = WearRec.clear :=
  tableGet_set_same WearRec.clear s.wear.records slot WearRec.clear

theorem wearOf_clearWear_other {slot x : Nat} (s : State) (h : x ≠ slot) : (clearWear slot s).wearOf x = s.wearOf x :=
  congrArg (·.getD WearRec.clear) (tableGet_set_other WearRec.clear s.wear.records WearRec.clear h)

theorem clearedOf_get_moved {s : State} {slot x : Nat} {v : Volser} (h : s.movedFrom slot v = some x) :
    tableGet (s.clearedOf slot v) x = none := by
  simp only [State.clearedOf, h, tableGet_drop_same]

theorem clearedOf_get_other {s : State} {slot x : Nat} {v : Volser} (h : s.movedFrom slot v ≠ some x) :
    tableGet (s.clearedOf slot v) x = tableGet s.dir.catalog x := by
  unfold State.clearedOf
  split
  · next other ho => exact tableGet_drop_other _ fun e => h (e ▸ ho)
  · rfl

theorem movedFrom_ne {s : State} {slot x : Nat} {v : Volser} (h : s.movedFrom slot v = some x) : x ≠ slot := by
  unfold State.movedFrom at h
  split at h
  · split at h
    · cases h
    · next hne => cases h; exact hne
  · cases h

/-- The row of DIR WRITE with its fields in range (R19, R21). -/
theorem exec_dirWrite (hs : s.settled = true) (h : s.ready = true) (hst : s.host.state = .config ∨ s.host.state = .running)
    {s1 s0 v1 v2 v3 v4 v5 v6 po ri : Byte} {ring : Bool} (hf : flagOf ri = some ring) (hslot : num16 s1 s0 < 4096)
    (hpo : po.toNat ≤ 15) (hv : (volserOf v1 v2 v3 v4 v5 v6).wellFormed = true) :
    exec (.dirWrite tag [s1, s0, v1, v2, v3, v4, v5, v6, po, ri]) s
      = .next (dirWrite tag (num16 s1 s0) (volserOf v1 v2 v3 v4 v5 v6) po.toNat ring s.opened) := by
  refine hostRow_runs (code := 10) h rfl rfl rfl (by obtain e | e := hst <;> rw [e] <;> rfl) ?_ ?_
  · show cmdDirWrite tag [s1, s0, v1, v2, v3, v4, v5, v6, po, ri] s.opened = _
    simp only [cmdDirWrite, hf, slotFits_of_lt hslot, hv, hpo, decide_true, Bool.and_self, if_true]
  · have heq (x y : Nat) (v : Volser) (r : Bool) (t : State) : (writeSlot x v y r t).settled = t.settled := by
      rw [writeSlot_eq]
      exact settled_congr rfl rfl rfl rfl rfl rfl rfl rfl
    unfold dirWrite
    split
    · exact (answered_settled ..).trans hs
    · exact (answered_settled ..).trans ((heq ..).trans hs)

/-- Settles O23: the catalogue is written at the named slot with the volser's other slot dropped; the rest is read off. -/
theorem dirWriteWritesSlot : Obligations.DirWriteWritesSlot := by
  intro s tag s1 s0 v1 v2 v3 v4 v5 v6 po ri ring hs h hst hf hslot hpo slot v hv cmd named held busy
  have run : exec cmd s = .next (dirWrite tag slot v po.toNat ring s.opened) := exec_dirWrite hs h hst hf hslot hpo hv
  have hn : (s.entry slot).any (fun e => e.state.busy) = true ↔ named := namedBusy_iff s slot
  have hh (x : Nat) : s.heldBusy v = some x ↔ held x := heldBusy_iff s v x
  have refused {b : Nat} (hb : s.busyFor slot v = some b) : busy b := by
    show exec cmd s = _
    rw [run, dirWrite, show s.opened.busyFor slot v = some b from hb]
    rfl
  rw [busyFor_eq] at refused
  refine ⟨fun hN hH => refused ?_, fun x hx hN => refused ?_, fun x hx hN => refused ?_, fun hN hH => ⟨_, run, ?_⟩⟩
  · rw [if_pos (hn.mpr hN), Option.eq_none_iff_forall_not_mem.mpr fun x hx => hH x ((hh x).mp hx)]
    rfl
  · rw [if_neg (mt hn.mp hN), (hh x).mpr hx]
  · rw [if_pos (hn.mpr hN), (hh x).mpr hx]
    rfl
  · have hfree : s.opened.busyFor slot v = none := by
      show s.busyFor slot v = none
      rw [busyFor_eq, if_neg (mt hn.mp hN)]
      exact Option.eq_none_iff_forall_not_mem.mpr fun x hx => hH x ((hh x).mp hx)
    rw [dirWrite, hfree]
    simp only [writeSlot_eq]
    refine ⟨⟨tableGet_put_same .., fun x hx => ?_, fun x hx hm => ?_, ?_⟩, ⟨wearOf_clearWear_same .., fun x hx => ?_⟩, ?_, rfl, rfl, rfl, rfl,
      rfl, rfl, rfl, rfl, rfl, rfl⟩
    · exact (tableGet_put_other _ _ (movedFrom_ne hx)).trans (clearedOf_get_moved hx)
    · exact (tableGet_put_other _ _ hx).trans (clearedOf_get_other hm)
    · exact List.filter_congr fun e _ => by simp only [ne_eq, decide_not]
    · exact wearOf_clearWear_other _ hx
    · rfl

/-! ### DIR DELETE and DIR CLEAR -/

theorem ReelState.beq_eq_decide (x y : ReelState) : (x == y) = decide (x = y) := by cases x <;> cases y <;> rfl

theorem ReelState.busy_eq (x : ReelState) : x.busy = decide (x = .out ∨ x = .retiring) := by cases x <;> rfl

/-- The two other commands on the directory touch it and the host port only (R22, R23). -/
theorem hostRow_directory (hs : s.settled = true) (h : s.ready = true) {i : Instr} {code : Nat} {p : List Byte} {t : State}
    (hi : hostRow i = some (code, tag, p)) (hr : CmdRec.isReset ⟨BitVec.ofNat 8 code, tag, p⟩ = false)
    (hf : formFits (BitVec.ofNat 8 code).toNat p = true) (hst : takenIn (BitVec.ofNat 8 code).toNat s.host.state = true)
    (ht : runCommand (BitVec.ofNat 8 code).toNat tag p s.opened = t) (he : t = { s with dir := t.dir, host := t.host }) :
    exec i s = .next t :=
  hostRow_runs h hi hr hf hst ht (by rw [he]; exact (settled_congr rfl rfl rfl rfl rfl rfl rfl rfl).trans hs)

theorem clearSelector_none {n : Nat} (h1 : n ≠ 1) (h4 : n ≠ 4) (h5 : n ≠ 5) : clearSelector 2 n = none := by
  have hcode : ReelState.ofCode n = none ∨ ReelState.ofCode n = some .out ∨ ReelState.ofCode n = some .retiring := by
    unfold ReelState.ofCode
    split
    all_goals simp_all
  unfold clearSelector
  rw [if_neg (by decide), if_pos rfl]
  obtain e | e | e := hcode <;> rw [e]

/-- Settles O24: a slot or a volser is dropped from its table, or a filter is applied to the catalogue. -/
theorem dirDeleteAndClear : Obligations.DirDeleteAndClear := by
  intro s tag hs h hst o
  have taken11 : takenIn 11 s.host.state = true := by obtain e | e := hst <;> rw [e] <;> rfl
  have taken13 : takenIn 13 s.host.state = true := by obtain e | e := hst <;> rw [e] <;> rfl
  have clears (code : Byte) (st : ReelState) (hsel : clearSelector 2 code.toNat = some fun e => e.state == st) (hst : st.busy = false) :
      exec (.dirClear tag [2, code]) s = .next
        ({ o with dir := { s.dir with catalog := s.dir.catalog.filter fun e => e.2.state ≠ st } }.answered tag
          (.cleared (s.dir.catalog.filter fun e : Nat × HomeEntry => e.2.state = st).length)) := by
    refine hostRow_directory (code := 13) hs h rfl rfl rfl taken13 ?_ rfl
    show cmdDirClear tag 2 code s.opened = _
    have hb : (s.opened.dir.catalog.filter fun e => (e.2.state == st) && e.2.state.busy) = [] := by
      refine List.filter_eq_nil_iff.mpr fun e _ hm => ?_
      obtain ⟨h1, h2⟩ := Bool.and_eq_true_iff.mp hm
      rw [ReelState.beq_eq_decide, decide_eq_true_eq] at h1
      rw [h1, hst] at h2
      cases h2
    have hin : (s.dir.catalog.filter fun e => e.2.state == st) = s.dir.catalog.filter fun e => e.2.state = st :=
      List.filter_congr fun e _ => ReelState.beq_eq_decide ..
    have hout : (s.dir.catalog.filter fun e => !(e.2.state == st)) = s.dir.catalog.filter fun e => e.2.state ≠ st :=
      List.filter_congr fun e _ => by rw [ReelState.beq_eq_decide, decide_not]
    rw [cmdDirClear, show clearSelector (2 : Byte).toNat code.toNat = _ from hsel]
    simp only [clearEntries, hb]
    rw [← hin, ← hout]
    rfl
  refine ⟨fun s1 s0 v1 v2 v3 v4 v5 v6 hslot => ?slot, ?learnt, fun p hp => ?pool, ⟨?_, ?_, ?_⟩, fun code hc => ?other⟩
  case slot =>
    refine hostRow_directory (code := 11) hs h rfl rfl rfl taken11 ?_ ?_
    · show cmdDirDelete tag [1, s1, s0, v1, v2, v3, v4, v5, v6] s.opened = _
      simp only [cmdDirDelete, if_true, slotFits_of_lt hslot, deleteSlot, State.entry, opened_dir]
      rfl
    · split
      · rfl
      · split <;> rfl
  case learnt =>
    intro s1 s0 v1 v2 v3 v4 v5 v6 hv v
    refine hostRow_directory (code := 11) hs h rfl rfl rfl taken11 ?_ ?_
    · show cmdDirDelete tag [2, s1, s0, v1, v2, v3, v4, v5, v6] s.opened = _
      have hform : (2 : Byte) ≠ 1 := by decide
      simp only [cmdDirDelete, if_neg hform, if_true, deleteLearnt]
      rw [if_pos hv, show s.opened.learntOf (volserOf v1 v2 v3 v4 v5 v6) = s.learntOf v from rfl]
      cases s.learntOf v <;> rfl
    · split <;> rfl
  case pool =>
    intro inPool busy
    refine hostRow_directory (code := 13) hs h rfl rfl rfl taken13 ?_ ?_
    · show cmdDirClear tag 1 p s.opened = _
      have hb : (s.opened.dir.catalog.filter fun e => (e.2.pool == p.toNat) && e.2.state.busy) = busy := by
        simp only [busy, inPool, List.filter_filter, ReelState.busy_eq, Bool.and_comm]
        rfl
      have hsel : clearSelector (1 : Byte).toNat p.toNat = some fun e => e.pool == p.toNat := by
        simp only [clearSelector, if_pos hp]
        rfl
      have hout : (s.dir.catalog.filter fun e => !(e.2.pool == p.toNat)) = s.dir.catalog.filter fun e => e.2.pool ≠ p.toNat :=
        List.filter_congr fun e _ => (decide_not ..).symm
      simp only [cmdDirClear, hsel, clearEntries, hb]
      cases hbusy : busy with
      | nil => rw [← hout]; rfl
      | cons e l => rfl
    · clear_value busy inPool
      cases busy <;> rfl
  · exact clears 1 .home rfl rfl
  · exact clears 4 .retired rfl rfl
  · exact clears 5 .missing rfl rfl
  case other =>
    refine hostRow_answers (code := 13) hs h rfl rfl rfl taken13 ?_
    show cmdDirClear tag 2 code s.opened = _
    have hcode (c : Byte) (hm : c ∈ ([1, 4, 5] : List Byte)) : code.toNat ≠ c.toNat := fun e => hc (BitVec.eq_of_toNat_eq e ▸ hm)
    rw [cmdDirClear, show clearSelector (2 : Byte).toNat code.toNat = none from
      clearSelector_none (hcode 1 (by decide)) (hcode 4 (by decide)) (hcode 5 (by decide))]
    rfl

end
end Sys2Proof.Machine


/-! The commands on the drives, the lanes, the audit and the arm; the audit's cursor, the spool's evaluation and the station clock. -/

namespace Sys2Proof.Machine

-- One proof at a time: proofs that wait for each other on threads of their own would reserve more stack than the check allows.
set_option Elab.async false

section
variable {s : State} {tag : Byte}

/-! ### What an event ends with -/

/-- An event of a part whose reset pin is not held (R116, R157, R204). -/
theorem runEvent_settles {f : State → State} {t : State} (hr : s.pins.resetHeld = false) (h : f s = t) :
    runEvent f s = .next (settle false t) := by
  rw [runEvent, hr, h]
  rfl

/-- A host command of good form, in a station state that takes it, on a ready port: what its row ends with (R196). -/
theorem hostRow_settles (h : s.ready = true) {i : Instr} {code : Nat} {p : List Byte} {t : State}
    (hi : hostRow i = some (code, tag, p)) (hr : CmdRec.isReset ⟨BitVec.ofNat 8 code, tag, p⟩ = false)
    (hf : formFits (BitVec.ofNat 8 code).toNat p = true) (hst : takenIn (BitVec.ofNat 8 code).toNat s.host.state = true)
    (ht : runCommand (BitVec.ofNat 8 code).toNat tag p s.opened = t) : exec i s = .next (settle false t) := by
  rw [exec_hostRow hi]
  exact runEvent_settles (ready_parts h).1 ((hostCommand_ready h _ _ _ hr).trans ((takeCommand_run _ _ hf hst).trans ht))

/-- What the arm and the display read is as it was (R116, R157). -/
theorem settled_of_same (hs : s.settled = true) {t : State} (h1 : t.seq.arm = s.seq.arm) (h2 : t.seq.inArm = s.seq.inArm)
    (h3 : t.seq.queue = s.seq.queue) (h4 : t.prm = s.prm) : t.settled = true :=
  (settled_congr h1 h2 h3 (by rw [h4]) (by rw [h4]) (by rw [h4]) (by rw [h4]) (by rw [h4])).trans hs

/-- An arm that is BUSY or in FAULT is given nothing, and the display is as it was (R116, R157). -/
theorem settled_of_engaged (hs : s.settled = true) {t : State} (h1 : t.seq.arm = .busy ∨ t.seq.arm = .fault) (h2 : t.prm = s.prm) :
    t.settled = true := by
  have hd : t.displaySettled = s.displaySettled := displaySettled_congr (by rw [h2]) (by rw [h2]) (by rw [h2]) (by rw [h2])
  have ha : t.armSettled = true := by obtain e | e := h1 <;> rw [State.armSettled, e]
  rw [State.settled, Bool.and_eq_true] at *
  exact ⟨ha, hd.trans hs.2⟩

/-! ### VARY DRIVE and VARY LANE -/

/-- Settles O25: one drive's or one side's record is written. -/
theorem varyDriveAndLane : Obligations.VaryDriveAndLane := by
  intro s tag hs h hc
  have taken14 : takenIn 14 s.host.state = true := by cases hst : s.host.state <;> first | exact absurd hst hc | rfl
  have taken15 : takenIn 15 s.host.state = true := by cases hst : s.host.state <;> first | exact absurd hst hc | rfl
  have drives {t : State} (ht : t = { s with host := t.host, mnt := t.mnt }) : t.settled = true := by
    rw [ht]
    exact settled_of_same hs rfl rfl rfl rfl
  refine ⟨fun d r hd => ⟨?_, ?_⟩, fun d hf => ?_⟩
  · refine hostRow_runs (code := 14) h rfl rfl rfl taken14 ?_ (drives rfl)
    show cmdVaryDrive tag d.toNat 1 s.opened = _
    rw [cmdVaryDrive, show s.opened.drive d.toNat = some r from hd]
    rfl
  · refine hostRow_runs (code := 14) h rfl rfl rfl taken14 ?_ (drives rfl)
    show cmdVaryDrive tag d.toNat 2 s.opened = _
    rw [cmdVaryDrive, show s.opened.drive d.toNat = some r from hd]
    rfl
  · intro held released shown
    have run (n : Byte) : runCommand (BitVec.ofNat 8 15).toNat tag [byteOf d.code, n] s.opened = cmdVaryLane tag d.code n.toNat s.opened := by
      cases d <;> rfl
    have hof : Side.ofCode d.code = some d := by cases d <;> rfl
    refine ⟨hostRow_runs (code := 15) h rfl rfl rfl taken15 ((run 1).trans ?_) ?_,
      hostRow_settles (code := 15) h rfl rfl rfl taken15 ((run 2).trans ?_)⟩
    · rw [cmdVaryLane, hof]
      exact if_pos hf
    · exact settled_of_same hs (by simp [held]) (by simp [held]) (by simp [held]) (by simp [held])
    · rw [cmdVaryLane, hof]
      exact if_pos hf

/-! ### The audit -/

theorem auditOut_congr {t : State} (h1 : t.seq.inArm = s.seq.inArm) (h2 : t.seq.queue = s.seq.queue) (h3 : t.seq.waiting = s.seq.waiting) :
    t.auditOut = s.auditOut := by
  simp only [State.auditOut, State.orders, h1, h2, h3]

/-- The audit ends with its figures (R133). -/
theorem finishAudit_ends (h1 : s.seq.audit.running = true) (h2 : s.seq.audit.last < s.seq.audit.next) (h3 : s.auditOut = false) :
    finishAudit s = { s with seq := { s.seq with
      audit := { s.seq.audit with running := false }
      notices := s.seq.notices ++ [.auditDone s.seq.audit.first s.seq.audit.last s.seq.audit.read s.seq.audit.skipped s.seq.audit.dropped
        s.seq.audit.posted] } } := by
  simp only [finishAudit, h1, decide_eq_true h2, h3]
  rfl

theorem finishAudit_goes_on (h : s.seq.audit.next ≤ s.seq.audit.last) : finishAudit s = s := by
  simp only [finishAudit, decide_eq_false h.not_gt, Bool.and_false, Bool.false_and]
  rfl

/-- An order with no place of the cell, from a slot to a slot, holds and asks for nothing (R115, R122). -/
theorem abandonOrder_slot {o : ArmOrder} {k : Nat} (h2 : o.dst = .slot k) (h3 : o.srcPos = none) (a : ArmState) (s : State) :
    abandonOrder o a s = leaveArm a s := by
  simp only [abandonOrder, releaseSrc, releaseDst, h2, h3]

/-- An offer with room in the order queue is taken at once (R114). -/
theorem offerStaged_room (h : s.orderRoom = true) (o : ArmOrder) (p : Option Nat) (st : Option Stage) (a : Answered) :
    offerStaged o p st a s = takeOffer o p st s := if_pos h

/-- The audit's read joins the tail of the order queue, and the cursor moves on (R131). -/
theorem takeOffer_auditRead (n : Nat) (s : State) : takeOffer (auditRead n) none none s = { s with seq := { s.seq with
    queue := s.seq.queue ++ [{ auditRead n with number := s.nextOrder, estimate := s.legEstimate (.slot n) (.slot n) }]
    counter := (s.nextOrder + 1) % 256
    audit := { s.seq.audit with next := s.seq.audit.next + 1 } } } := rfl

theorem exec_auditCursorStep (s : State) : exec .auditCursorStep s = runEvent auditStep s := rfl

theorem exec_armCompletion (n : Nat) (r : ArmResult) (l : Option (List Nat)) (s : State) :
    exec (.armCompletion n r l) s = runEvent (onCompletion n r l) s := rfl

/-- A COMPLETION of the order in flight (R116, R119). -/
theorem onCompletion_busy {o : ArmOrder} (h1 : s.seq.arm = .busy) (h2 : s.seq.inArm = some o) (r : ArmResult) (l : Option (List Nat)) :
    onCompletion o.number r l s = applyCompletion o r l s := by
  simp only [onCompletion, h1, h2, if_true]

/-- With no other audit order in the sequencer, none is left once the arm's has gone (R131). -/
theorem auditOut_leaveArm (h1 : ∀ q ∈ s.seq.queue, q.purpose ≠ .audit) (h2 : s.seq.waiting = []) (a : ArmState) :
    (leaveArm a s).auditOut = false := by
  simp only [State.auditOut, State.orders, leaveArm, h2, Option.toList_none, List.append_nil, List.any_nil, Bool.or_false, List.any_eq_false,
    decide_eq_true_eq]
  exact h1

/-- The cursor steps (R131). -/
theorem auditStep_moves (hr : s.seq.audit.running = true) (hf : s.seq.arm ≠ .fault) (hl : s.seq.audit.next ≤ s.seq.audit.last)
    (ho : s.auditOut = false) (hn : s.auditNoticeWaits = false) : auditStep s
      = if (s.entry s.seq.audit.next).map (·.state) = some .out then
          finishAudit (updAudit (fun a => { a with skipped := a.skipped + 1, next := a.next + 1 }) s)
        else offerStaged (auditRead s.seq.audit.next) none none .none s := by
  have hf' : (s.seq.arm != .fault) = true := by simpa using hf
  simp only [auditStep, hr, hf', decide_eq_true hl, ho, hn, Bool.not_false, Bool.and_self, if_true]

theorem auditStep_waits (h : s.auditOut = true ∨ s.auditNoticeWaits = true ∨ s.seq.audit.running = false ∨ s.seq.arm = .fault) :
    auditStep s = s := by
  unfold auditStep
  refine if_neg fun hg => ?_
  simp only [Bool.and_eq_true, Bool.not_eq_true', bne_iff_ne, ne_eq] at hg
  obtain ⟨⟨⟨⟨hr, hf⟩, -⟩, ho⟩, hn⟩ := hg
  obtain h | h | h | h := h
  · rw [ho] at h; cases h
  · rw [hn] at h; cases h
  · rw [hr] at h; cases h
  · exact hf h

/-- Settles O26: the cursor's step and the end of its read, each up to the test whether the audit is over. -/
theorem auditStartsAndSteps : Obligations.AuditStartsAndSteps := by
  refine fun s hs => ⟨fun tag a b c d h hst h1 h2 => ?start, fun hp hr ho hn hf => ⟨fun e he hout hl => ?skip, ?last, ?offer⟩, ?stays, ?ends⟩
  case start =>
    refine hostRow_runs (code := 16) h rfl rfl rfl (by obtain e | e := hst <;> rw [e] <;> rfl) ?_ ?_
    · show cmdAudit tag (num16 a b) (num16 c d) s.opened = _
      rw [cmdAudit, slotFits_of_lt (lt_of_le_of_lt h1 h2), slotFits_of_lt h2, decide_eq_true h1]
      rfl
    · split
      · exact settled_of_same hs rfl rfl rfl rfl
      · exact settled_of_same hs rfl rfl rfl rfl
  case skip =>
    have hf : auditStep s = _ := (auditStep_moves hr hf hl.le ho hn).trans (if_pos (by rw [he, Option.map_some, hout]))
    rw [finishAudit_goes_on (Nat.succ_le_of_lt hl)] at hf
    rw [exec_auditCursorStep, runEvent_of_settled hp (by rw [hf]; exact settled_of_same hs rfl rfl rfl rfl), hf]
    rfl
  case last =>
    intro e he hout hl a
    have hf : auditStep s = _ := (auditStep_moves hr hf hl.le ho hn).trans (if_pos (by rw [he, Option.map_some, hout]))
    rw [finishAudit_ends] at hf
    · rw [exec_auditCursorStep, runEvent_of_settled hp (by rw [hf]; exact settled_of_same hs rfl rfl rfl rfl), hf]
      rfl
    · exact hr
    · exact Nat.lt_succ_of_le hl.ge
    · exact (auditOut_congr rfl rfl rfl).trans ho
  case offer =>
    intro he hl hroom o
    have hne : ¬ (s.entry s.seq.audit.next).map (·.state) = some .out := by
      rw [Option.map_eq_some_iff]
      exact fun ⟨e, h1, h2⟩ => he e h1 h2
    exact runEvent_settles hp ((auditStep_moves hr hf hl ho hn).trans ((if_neg hne).trans ((offerStaged_room hroom ..).trans rfl)))
  case stays =>
    intro hp h
    rw [exec_auditCursorStep, runEvent_of_settled hp (by rw [auditStep_waits h, hs]), auditStep_waits h]
  case ends =>
    intro o k hp hr hl harm hin hform hpur hby hsrc hdst hpos hid hq hw a done empty
    have hout (x : ArmState) : (leaveArm x s).auditOut = false := auditOut_leaveArm (fun q h => (hq q h).2) hw x
    have run (r : ArmResult) (l : Option (List Nat)) : onCompletion o.number r l s = applyCompletion o r l s := onCompletion_busy harm hin r l
    have hnone : applyCompletion o .sourceEmpty none s = finishAudit (auditEnded k .slotEmpty (leaveArm .idle s)) := by
      have hfa : o.faults .sourceEmpty none = false := by simp only [ArmOrder.faults, hform]
      simp only [applyCompletion, hfa, Bool.false_eq_true, if_false, sourceEmpty, hform, if_true, readEnded, hsrc, Loc.slot?,
        abandonOrder_slot hdst hpos]
    refine ⟨fun he => ?_, fun e he hst => ?_, fun hfault => ?_⟩
    · refine runEvent_settles hp ((run ..).trans (hnone.trans ?_))
      have hend : auditEnded k .slotEmpty (leaveArm .idle s) = updAudit (fun a => { a with read := a.read + 1 }) (leaveArm .idle s) := by
        simp only [auditEnded, auditReport, show (leaveArm .idle s).entry k = none from he, auditFinding]
      rw [hend, finishAudit_ends]
      · simp only [done, List.append_nil]
        rfl
      · exact hr
      · exact hl
      · exact (auditOut_congr rfl rfl rfl).trans (hout .idle)
    · refine runEvent_settles hp ((run ..).trans (hnone.trans ?_))
      have hend : auditEnded k .slotEmpty (leaveArm .idle s) = auditResult k .isEmpty none
          (updAudit (fun a => { a with read := a.read + 1 }) (setEntry k { e with state := .missing } (leaveArm .idle s))) := by
        have hau : e.audited .slotEmpty = .missing := by simp only [HomeEntry.audited, hst]
        simp only [auditEnded, auditReport, show (leaveArm .idle s).entry k = some e from he, auditFinding, hst, hau, AuditOutcome.volser]
      have hk : (updAudit (fun a => { a with read := a.read + 1 }) (setEntry k { e with state := .missing } (leaveArm .idle s))).entry k
          = some { e with state := .missing } := tableGet_put_same ..
      rw [hend, finishAudit_ends]
      · simp only [auditResult, hk, done]
        rfl
      · exact hr
      · exact hl
      · exact (auditOut_congr rfl rfl rfl).trans (hout .idle)
    · have hdrop : applyCompletion o .armFault none s = finishAudit (auditDropped k (postSeq (o.faultNotice .armFault true) (leaveArm .fault s))) := by
        have hnot : o.form ≠ .pick := by rw [hform]; decide
        have hfa : o.faults .armFault none = true := rfl
        simp only [applyCompletion, hfa, if_true, armFaulted, hfault, dropOrder, droppedPick, toldArm, hby, hsrc, Loc.slot?,
          abandonOrder_slot hdst hpos, if_neg hnot]
        simp only [nextHead, hform]
      have hnotice : o.faultNotice .armFault true = .armFault o.number .audit .readOnly o.src o.dst none .armFault true := by
        rw [ArmOrder.faultNotice, hpur, hform, hid]
      rw [finishAudit_ends] at hdrop
      · rw [hnotice] at hdrop
        rw [exec_armCompletion, runEvent_of_settled hp (by rw [run, hdrop]; exact settled_of_engaged hs (.inr rfl) rfl), run, hdrop]
        simp only [done, auditDropped, auditResult, updAudit, postSeq, List.append_assoc]
        rfl
      · exact hr
      · exact hl
      · exact (auditOut_congr rfl rfl rfl).trans (hout .fault)

/-! ### ARM RESUME -/

/-- The message an arm in FAULT is sent again (R118). -/
theorem resendArm_eq {o : ArmOrder} (hin : s.seq.inArm = some o) : resendArm o s = { s with seq := { s.seq with
    arm := .busy
    ref := some (s.locPoint o.dst)
    sent := s.seq.sent ++ [if s.seq.repeatSent then ArmMessage.repeatRead o.number
      else ArmMessage.order o.number o.phases (s.locPoint o.src) o.srcPos (s.locPoint o.dst) o.dstPos] } } := by
  unfold resendArm
  cases hr : s.seq.repeatSent
  all_goals
    simp only [issue, sendArm, setInArm, ← hin, if_true, Bool.false_eq_true, if_false]
  · rw [← hr]; rfl
  · rfl

/-- Settles O27: the branches of ARM RESUME. -/
theorem armResumeLeavesFault : Obligations.ArmResumeLeavesFault := by
  intro s tag hs h hc
  have taken17 : takenIn 17 s.host.state = true := by cases hst : s.host.state <;> first | exact absurd hst hc | rfl
  refine ⟨fun hf => ?_, fun hf o hin ht hd => ?_, fun hf o hin hn => ?_, fun hf hin => ?_⟩
  · refine hostRow_answers (code := 17) hs h rfl rfl rfl taken17 ?_
    exact if_neg hf
  · refine hostRow_answers (code := 17) hs h rfl rfl rfl taken17 ?_
    show cmdArmResume tag s.opened = _
    rw [cmdArmResume, if_pos (show s.opened.seq.arm = .fault from hf)]
    simp only [opened_seq, hin, opened_prm, ht, hd, Bool.and_self, if_true]
    rfl
  · refine hostRow_runs (code := 17) h rfl rfl rfl taken17 ?_ (settled_of_engaged hs (.inl rfl) rfl)
    show cmdArmResume tag s.opened = _
    have hb : (o.touchesCell && s.prm.doorOpen) = false := by
      obtain e | e := hn
      · rw [e, Bool.false_and]
      · rw [e, Bool.and_false]
    rw [cmdArmResume, if_pos (show s.opened.seq.arm = .fault from hf)]
    simp only [opened_seq, hin, opened_prm, hb, Bool.false_eq_true, if_false, resendArm_eq (s := s.opened) hin]
    rfl
  · refine hostRow_settles (code := 17) h rfl rfl rfl taken17 ?_
    show cmdArmResume tag s.opened = _
    rw [cmdArmResume, if_pos (show s.opened.seq.arm = .fault from hf)]
    simp only [opened_seq, hin, leaveArm]
    rw [← hin]
    rfl

/-! ### The spool state and the station clock -/

/-- An evaluation that leaves the spool state as it is changes nothing; one that changes it says so of DRAIN WANTED and WITHDRAWN (R189). -/
theorem evalSpool_next (s : State) : let next := spoolNext s.acct.spoolState s.held s.live s.settings.high s.settings.low
    evalSpool s = { s with acct := { s.acct with
      spoolState := next
      notices := s.acct.notices ++ (if next ≠ s.acct.spoolState ∧ next ≠ .normal then [.drainWanted next s.held s.live] else []) } } := by
  intro next
  have heq : evalSpool s = if next = s.acct.spoolState then s
    else if next = .normal then { s with acct := { s.acct with spoolState := next } }
    else postAcct (.drainWanted next s.held s.live) { s with acct := { s.acct with spoolState := next } } := rfl
  rw [heq]
  split
  · next h => simp only [ne_eq, h, not_true_eq_false, false_and, if_false, List.append_nil]
  · next h =>
    split
    · next hn => simp only [ne_eq, hn, not_true_eq_false, and_false, if_false, List.append_nil]
    · next hn => rw [if_pos ⟨h, hn⟩]; rfl

/-- Settles O29: the table is `spoolNext`. -/
theorem spoolStateTable : Obligations.SpoolStateTable := by
  intro s next
  have hn : spoolNext s.acct.spoolState s.held s.live s.settings.high s.settings.low = next := rfl
  rw [evalSpool_next, hn]

/-- Settles O31: `clockTick`, with a peer's silence written as a choice. -/
theorem clockTickMovesSeconds : Obligations.ClockTickMovesSeconds := by
  intro s hs hp down
  have hset : (clockTick s).settled = true := by
    unfold clockTick
    split
    · exact settled_of_same hs rfl rfl rfl rfl
    · exact hs
  refine (runEvent_of_settled hp hset).trans (congrArg Host.Outcome.next ?_)
  unfold clockTick
  by_cases hc : s.host.clockRuns = true ∧ s.host.clock < 4294967295
  · have hg : (s.host.clockRuns && decide (s.clock < Config.top32)) = true := Bool.and_eq_true_iff.mpr ⟨hc.1, decide_eq_true hc.2⟩
    have hpeers (e : Nat × Peer) : (e.1, if e.2.presence = .up then { e.2 with silence := e.2.silence - 1 } else e.2)
        = (e.1, { e.2 with silence := if e.2.presence = .up then e.2.silence - 1 else e.2.silence }) := by split <;> rfl
    rw [if_pos hg, if_pos hc]
    simp only [hpeers]
    rfl
  · rw [if_neg hc, if_neg fun hg => hc ?_]
    obtain ⟨h1, h2⟩ := Bool.and_eq_true_iff.mp hg
    exact ⟨h1, of_decide_eq_true h2⟩

end
end Sys2Proof.Machine


/-! The library line: what a frame heard leads to, and the frames that lead to nothing. -/

namespace Sys2Proof.Machine

-- One proof at a time: proofs that wait for each other on threads of their own would reserve more stack than the check allows.
set_option Elab.async false

section
variable {s t : State}

/-! ### The rows -/

/-- An event whose effect is known and leaves the part settled. -/
theorem runEvent_ends {f : State → State} (hr : s.pins.resetHeld = false) (h : f s = t) (ht : t.settled = true) : runEvent f s = .next t :=
  (runEvent_of_settled hr (h ▸ ht)).trans (congrArg _ h)

/-- The row of a frame's kind hears the frame. -/
theorem exec_frameRow (k : FrameKind) (f : RawFrame) (s : State) : exec (frameRow k f) s = runEvent (hear k f) s := by cases k <;> rfl

theorem hears_resetHeld {k : FrameKind} {f : RawFrame} (h : s.hears k f = true) : s.pins.resetHeld = false := (hears_parts h).1

/-- The row of a unicast frame that is accepted (R32), up to what the event ends with. -/
theorem exec_accepts {f : RawFrame} {b : Body} (h : s.accepts f b = true) (hb : b.kind.broadcast = false) (ha : b.kind ≠ .ack)
    (ht : actOn f.src.toNat b (s.acked f) = t) : exec (frameRow b.kind f) s = .next (settle false t) := by
  rw [exec_frameRow]
  exact runEvent_settles (hears_resetHeld (hears_of_accepts h)) ((hear_accepts h hb ha).trans ht)

/-- The row of a unicast frame that is accepted, when the block leaves the part settled (R32). -/
theorem exec_accepts_ends {f : RawFrame} {b : Body} (h : s.accepts f b = true) (hb : b.kind.broadcast = false) (ha : b.kind ≠ .ack)
    (ht : actOn f.src.toNat b (s.acked f) = t) (hs : t.settled = true) : exec (frameRow b.kind f) s = .next t := by
  rw [exec_accepts h hb ha ht, settle_of_settled hs]

/-- The row of a broadcast that is heard, when the block leaves the part settled (R28). -/
theorem exec_overhears_ends {f : RawFrame} {b : Body} (h : s.overhears f b = true) (hb : b.kind.broadcast = true) (hh : b.kind ≠ .hello)
    (ht : actOn f.src.toNat b (s.touched f.src.toNat) = t) (hs : t.settled = true) : exec (frameRow b.kind f) s = .next t := by
  simp only [State.overhears, Bool.and_eq_true, beq_iff_eq] at h
  obtain ⟨hh', hbody⟩ := h
  rw [exec_frameRow]
  refine runEvent_ends (hears_resetHeld hh') ?_ hs
  rw [hear_broadcast hh' hb hh, passOn, hbody]
  exact ht

/-! ### Frames that are not taken -/

/-- Settles O33: each test of `hear` that fails leaves the state as it is. -/
theorem framesThatAreNotTaken : Obligations.FramesThatAreNotTaken := by
  intro s k f hs hp
  refine ⟨fun h => ?_, fun bytes hb => ?_, fun bytes hb => ?_⟩
  · rw [exec_frameRow]
    refine runEvent_ends hp ?_ hs
    unfold hear
    by_cases h1 : s.line.phase = .sending ∨ framePasses k f = false
    · exact if_pos h1
    · rw [if_neg h1]
      obtain h | h | ⟨h, hk⟩ | ⟨h, hc⟩ := h
      · exact absurd (.inr h) h1
      · exact absurd (.inl h) h1
      · rw [if_pos h, if_neg hk]
      · rw [if_neg h, if_pos hc]
  · exact runEvent_ends (f := hearBytes bytes) hp (by rw [hearBytes, hb]) hs
  · have h : hearBytes bytes s = hear k f s := by rw [hearBytes, hb]
    rw [exec_frameRow]
    exact congrArg (fun u => Host.Outcome.next (if s.pins.resetHeld then s else settle false u)) h

/-- A peer's unicast frame that is no ACK, heard on the line (R28, R32, R33). -/
theorem hear_unicast {k : FrameKind} {f : RawFrame} (h : s.hears k f = true) (hk : k.broadcast = false) (ha : k ≠ .ack) :
    hear k f s = if f.dst.toNat = s.addr then acceptUnicast f.src.toNat f.seq.toNat k f.payload (s.touched f.src.toNat)
      else learnFrom f.src.toNat (bodyOf k f.payload) { s.touched f.src.toNat with line := { (s.touched f.src.toNat).line with
        dedupe := tableDrop s.line.dedupe f.src.toNat } } := by
  obtain ⟨-, -, -, -, h4, h5⟩ := hears_parts h
  have h5' : ((dropDedupe f.src.toNat s).peer f.src.toNat).presence ≠ .down := h5
  have hb : ∀ x, bodyOf k f.payload ≠ some (.hello x) := by
    intro x hx
    rw [← bodyOf_kind hx] at hk
    cases hk
  have taken : hear k f s = if f.dst.toNat = s.addr then acceptUnicast f.src.toNat f.seq.toNat k f.payload (touchPeer f.src.toNat s)
      else learnFrom f.src.toNat (bodyOf k f.payload) (touchPeer f.src.toNat (dropDedupe f.src.toNat s)) := by
    rw [hear_takes h, takePeerFrame]
    cases hx : bodyOf k f.payload with
    | none => by_cases hm : f.dst.toNat = s.addr <;> simp [hk, hm, ha, touchPeer_up h5, touchPeer_up h5', h4]
    | some b =>
      cases b with
      | hello x => exact absurd hx (hb x)
      | _ => by_cases hm : f.dst.toNat = s.addr <;> simp [hk, hm, ha, touchPeer_up h5, touchPeer_up h5', h4]
  rw [taken, touchPeer_up h5, touchPeer_up h5']
  rfl

/-- Settles O34: a duplicate is acknowledged, and a frame for another station empties the dedupe entry. -/
theorem duplicatesAndOthersFrames : Obligations.DuplicatesAndOthersFrames := by
  intro s k f hs h hk ha
  have hp := hears_resetHeld h
  refine ⟨fun hm hd => ?_, fun hm hh => ?_⟩
  · rw [exec_frameRow]
    refine runEvent_ends hp ?_ (settled_of_same hs rfl rfl rfl rfl)
    rw [hear_unicast h hk ha, if_pos hm]
    exact if_pos hd
  · rw [exec_frameRow]
    refine runEvent_ends hp ?_ (settled_of_same hs rfl rfl rfl rfl)
    rw [hear_unicast h hk ha, if_neg hm]
    unfold learnFrom
    split
    · next hb => exact absurd (bodyOf_kind hb).symm hh
    · rfl

/-! ### What the display reads of the prompts -/

/-- A change of every prompt that keeps what makes it displayable changes the display order with it (R157). -/
theorem displayOrder_map {g : Prompt → Prompt} (hg : ∀ p, (g p).displayable = p.displayable ∧ (g p).kind = p.kind)
    (h : t.prm.prompts = s.prm.prompts.map g) : t.displayOrder = s.displayOrder.map g := by
  have hat (n : Nat) : t.shownAt n = (s.shownAt n).map g := by
    simp only [State.shownAt, h, List.filter_map, Function.comp_def, hg]
  simp only [State.displayOrder, List.map_flatMap, ← hat]

/-- The console shows what it must after a change of prompts that the display does not read (R157). -/
theorem displaySettled_map {g : Prompt → Prompt} (hg : ∀ p, (g p).displayable = p.displayable ∧ (g p).kind = p.kind)
    (hn : ∀ p, (g p).number = p.number) (h : t.prm.prompts = s.prm.prompts.map g) (h1 : t.prm.shown = s.prm.shown)
    (h2 : t.prm.browsing = s.prm.browsing) (h3 : t.prm.unconfirmed = s.prm.unconfirmed) : t.displaySettled = s.displaySettled := by
  have ho := displayOrder_map hg h
  have he : t.displayOrder.isEmpty = s.displayOrder.isEmpty := by rw [ho, List.isEmpty_map]
  have ha (n : Nat) : (t.displayOrder.any fun p => p.number = n) = s.displayOrder.any fun p => p.number = n := by
    rw [ho, List.any_map]
    simp only [Function.comp_def, hn]
  have hh : t.displayHead = s.displayHead := by
    rw [State.displayHead, ho, List.head?_map, Option.map_map, State.displayHead]
    congr 1
    exact funext hn
  simp only [State.displaySettled, h1, h2, h3, he, ha, hh]

/-- What the arm reads is as it was, and the display shows what it must (R116, R157). -/
theorem settled_of_display (hs : s.settled = true) (h1 : t.seq.arm = s.seq.arm) (h2 : t.seq.inArm = s.seq.inArm)
    (h3 : t.seq.queue = s.seq.queue) (h4 : t.prm.doorOpen = s.prm.doorOpen) (h5 : t.displaySettled = s.displaySettled) : t.settled = true := by
  rw [State.settled, armSettled_congr h1 h2 h3 h4, h5]
  exact hs

/-- A prompt's note of its PROMPT NOTICE is nothing the display reads (R168). -/
theorem updPrompt_notice_settled (hs : s.settled = true) {n : Nat} {g : Prompt → Prompt} (hg : ∀ p, g p = { p with notice := (g p).notice }) :
    (updPrompt n g s).settled = true := by
  refine settled_of_display hs rfl rfl rfl rfl
    (displaySettled_map (g := fun p => if p.number = n then g p else p) (fun p => ?_) (fun p => ?_) ?_ rfl rfl rfl)
  · split
    · rw [hg p]; exact ⟨rfl, rfl⟩
    · exact ⟨rfl, rfl⟩
  · split
    · rw [hg p]
    · rfl
  · simp only [updPrompt, updWhere, decide_eq_true_eq]

/-! ### The remote prompts -/

/-- Settles O46: the two frames write the remote prompt list. -/
theorem remotePrompts : Obligations.RemotePrompts := by
  have keep (l : List RemotePrompt) (src n : Nat) : (l.filter fun e => !(e.station == src && e.number == n))
      = l.filter fun e => ¬ (e.station = src ∧ e.number = n) := by
    refine List.filter_congr fun e _ => ?_
    rw [Bool.eq_iff_iff]
    simp
  refine ⟨fun s f n k v hs h => ?_, fun s f n hs h => ?_⟩
  · intro l
    have hl : (s.prm.remote.filter fun e => !(e.station == f.src.toNat && e.number == n)) = l := keep ..
    refine exec_overhears_ends h rfl nofun ?_ ?_
    · show onNotice f.src.toNat n k v (s.touched f.src.toNat) = _
      simp only [onNotice, show (s.touched f.src.toNat).prm = s.prm from rfl, hl]
      rfl
    · exact settled_of_display hs rfl rfl rfl rfl (displaySettled_congr rfl rfl rfl rfl)
  · refine exec_overhears_ends h rfl nofun ?_ ?_
    · show onCleared f.src.toNat n (s.touched f.src.toNat) = _
      simp only [onCleared, show (s.touched f.src.toNat).prm = s.prm from rfl, keep]
    · exact settled_of_display hs rfl rfl rfl rfl (displaySettled_congr rfl rfl rfl rfl)

/-! ### Silence and lifetimes -/

theorem filter_ne {α : Type} (l : List α) (f : α → Nat) (a : Nat) : (l.filter fun e => f e != a) = l.filter fun e => f e ≠ a :=
  List.filter_congr fun e _ => by rw [Bool.eq_iff_iff]; simp

/-- The side to a neighbour is fitted (R135). -/
theorem sideOf_fitted {a : Nat} {d : Side} (h : s.sideOf a = some d) : (s.side d).outbound ≠ .notFitted := by
  unfold State.sideOf at h
  split at h
  · next hw =>
    cases h
    exact bne_iff_ne.mp (Bool.and_eq_true_iff.mp hw).1
  · split at h
    · next he =>
      cases h
      exact bne_iff_ne.mp (Bool.and_eq_true_iff.mp he).1
    · cases h

theorem updSide_congr {d : Side} {f g : SideRec → SideRec} (h : f (s.side d) = g (s.side d)) : updSide d f s = updSide d g s := by
  cases d
  · exact congrArg (fun r => { s with lane := { s.lane with west := r } }) h
  · exact congrArg (fun r => { s with lane := { s.lane with east := r } }) h

/-- The lane to a neighbour once the neighbour is DOWN (R148). -/
def State.laneLost (s : State) (a : Nat) : LaneUnit :=
  match s.sideOf a with
  | some d => (updSide d (fun r => { r with outbound := .down, downFromAgreeing := decide (r.outbound = .agreeing) }) s).lane
  | none => s.lane

/-- What marking a peer DOWN changes (R40). -/
theorem markDown_eq {a : Nat} (h : (s.peer a).presence ≠ .down) :
    markDown a s = { setPeer a { s.peer a with presence := .down, silence := 0 } s with
      dir := { s.dir with learnt := s.dir.learnt.filter fun e => e.2.holder ≠ a }
      prm := { s.prm with remote := s.prm.remote.filter fun e => e.station ≠ a }
      lane := s.laneLost a } := by
  have hf (l : Table LearntEntry) : (l.filter fun e => !decide (e.2.holder = a)) = l.filter fun e => e.2.holder ≠ a :=
    List.filter_congr fun e _ => (decide_not ..).symm
  rw [markDown, if_neg h]
  generalize hu : forgetHolder a (setPeer a { s.peer a with presence := .down, silence := 0 } s) = u
  have hlane : lanesDown a u = { u with lane := s.laneLost a } := by
    subst hu
    unfold lanesDown State.laneLost
    rw [show State.sideOf (forgetHolder a (setPeer a { s.peer a with presence := .down, silence := 0 } s)) a = s.sideOf a from rfl]
    cases hd : s.sideOf a with
    | none => rfl
    | some d =>
      refine (updSide_congr (g := fun r => { r with outbound := .down, downFromAgreeing := decide (r.outbound = .agreeing) }) ?_).trans ?_
      · exact if_neg (sideOf_fitted hd)
      · cases d <;> rfl
  rw [hlane, dropRemote]
  subst hu
  simp only [filter_ne, forgetHolder, forgetWhere, hf]
  rfl

/-- Settles O49: the two expiries. -/
theorem silenceAndLearntExpiry : Obligations.SilenceAndLearntExpiry := by
  intro s hs hp
  refine ⟨fun a hu h0 => ?_, fun a h => ?_, fun k e he => ⟨fun h0 => ?_, fun h0 => ?_⟩⟩
  · have hpeer : ({ s.peer a with presence := .down, silence := 0 } : Peer) = { s.peer a with presence := .down } := by rw [← h0]
    refine runEvent_ends (f := silenceExpired a) hp ?_ (settled_of_display hs rfl rfl rfl rfl (displaySettled_congr rfl rfl rfl rfl))
    rw [silenceExpired, if_pos ⟨hu, h0⟩, markDown_eq (by rw [hu]; decide), hpeer]
    rfl
  · refine runEvent_ends (f := silenceExpired a) hp (if_neg ?_) hs
    rintro ⟨h1, h2⟩
    exact h.elim (fun e => e h1) fun e => e h2
  · refine runEvent_ends (f := learntExpired k) hp ?_ (settled_of_same hs rfl rfl rfl rfl)
    rw [learntExpired, he]
    exact if_pos h0
  · refine runEvent_ends (f := learntExpired k) hp ?_ hs
    rw [learntExpired, he]
    exact if_neg h0

end
end Sys2Proof.Machine


/-! The transmit queue and the frame in service. -/

namespace Sys2Proof.Machine

-- One proof at a time: proofs that wait for each other on threads of their own would reserve more stack than the check allows.
set_option Elab.async false

section
variable {s t : State}

/-! ### Frames that enter the queue -/

/-- What a frame's entry starts does not read the line, nor change it (R35). -/
theorem frameEntered_withLine (f : TxFrame) (l : LineUnit) (s : State) :
    frameEntered f { s with line := l } = { frameEntered f s with line := l } := by
  unfold frameEntered
  split
  case h_6 =>
    rw [show State.sideOf { s with line := l } = s.sideOf from rfl]
    split
    · next d _ _ => cases d <;> rfl
    · rfl
  all_goals rfl

/-- A frame that is no CREDIT takes its place at the tail of the queue, and starts what its kind starts (R35). -/
theorem enterQueue_eq {f : TxFrame} (h : f.body.kind ≠ .credit) (s : State) :
    enterQueue f s = frameEntered f { s with line := { s.line with queue := s.line.queue ++ [f] } } := by
  rw [frameEntered_withLine, enterQueue]
  split
  · next lane n hb => exact absurd (by rw [hb]; rfl) h
  · rw [frameEntered_line]

/-- A kind whose entry starts nothing (R35). -/
theorem frameEntered_plain {f : TxFrame} (h : f.body.kind ∉ [.locate, .offer, .award, .fetch, .promptNotice, .deposit]) (s : State) :
    frameEntered f s = s := by
  unfold frameEntered
  split
  case h_7 => rfl
  all_goals
    next hb =>
      rw [hb] at h
      exact absurd (by simp [Body.kind]) h

theorem frameEntered_locate {f : TxFrame} {id : ReqId} {v : Volser} (h : f.body = .locate id v) (s : State) : frameEntered f s
    = updOrigin id (fun o => if o.ended.isNone = true ∧ o.state = .locating
        then { o with locateWindow := some s.timers.locateWindow } else o) s := by
  simp only [frameEntered, h, Bool.and_eq_true, decide_eq_true_eq]

theorem frameEntered_offer {f : TxFrame} {id : ReqId} {q : RequestTerms} {k : DriveSpec} (h : f.body = .offer id q k) (s : State) :
    frameEntered f s = updOrigin id (fun o => if o.ended.isNone = true ∧ o.state = .offered
        then { o with bidWindow := some s.timers.bidWindow } else o) s := by
  simp only [frameEntered, h, Bool.and_eq_true, decide_eq_true_eq]

theorem frameEntered_award {f : TxFrame} {id : ReqId} {q : RequestTerms} {d : Nat} (h : f.body = .award id q d) (s : State) :
    frameEntered f s = updOrigin id (fun o => if o.ended.isNone = true ∧ o.state = .awarding ∧ o.awardee = f.dst
        then { o with awardAnswer := some s.timers.awardAnswer } else o) s := by
  simp only [frameEntered, h, Bool.and_eq_true, decide_eq_true_eq, and_assoc]

theorem frameEntered_fetch {f : TxFrame} {id : ReqId} {v : Volser} {a b c : Nat} (h : f.body = .fetch id v a b c) (s : State) :
    frameEntered f s = updMount id (fun m => if m.stage = .sourcing
        then { m with arrivalLimit := some s.timers.arrivalLimit } else m) s := by
  simp only [frameEntered, h]

theorem frameEntered_promptNotice {f : TxFrame} {n : Nat} {k : PromptKind} {v : Volser} (h : f.body = .promptNotice n k v) (s : State) :
    frameEntered f s = updPrompt n (fun p => if p.notice = .offered then { p with notice := .sent } else p) s := by
  simp only [frameEntered, h]

theorem frameEntered_deposit {f : TxFrame} {r : Routing} (h : f.body = .deposit r) (hr : f.resend = false) (s : State) :
    frameEntered f s = s := by
  simp only [frameEntered, h, hr]

theorem frameEntered_resend {f : TxFrame} {r : Routing} {d : Side} (h : f.body = .deposit r) (hr : f.resend = true)
    (hd : f.dst.bind s.sideOf = some d) : frameEntered f s = updSide d (fun x => { x with undelivered := dropFirst r x.undelivered }) s := by
  simp only [frameEntered, h, hr, hd]

/-- The counts of CREDITs merged into one, within 255 (R36). -/
theorem foldl_addCredit (lane : Side) (l : List TxFrame) (f : TxFrame) {n : Nat} (hb : f.body = .credit lane n) (hn : n ≤ 255) :
    l.foldl (fun g w => g.addCredit w.creditCount) f
      = { f with body := .credit lane (min 255 (n + (l.map TxFrame.creditCount).sum)) } := by
  induction l generalizing f n with
  | nil => simp [Nat.min_eq_right hn, ← hb]
  | cons w l ih =>
    have hstep : f.addCredit w.creditCount = { f with body := .credit lane (satAdd 255 n w.creditCount) } := by
      rw [TxFrame.addCredit, hb]
    have hle : satAdd 255 n w.creditCount ≤ 255 := by unfold satAdd; omega
    rw [List.foldl_cons, hstep, ih _ rfl hle, List.map_cons, List.sum_cons]
    have : min 255 (satAdd 255 n w.creditCount + (l.map TxFrame.creditCount).sum)
        = min 255 (n + (w.creditCount + (l.map TxFrame.creditCount).sum)) := by unfold satAdd; omega
    rw [this]

/-- Settles O48: the oldest waiting frame enters as `enterQueue` has it, and the presence timer offers a HELLO. -/
theorem waitingFrameAndPresence : Obligations.WaitingFrameAndPresence := by
  intro s hs hp
  refine ⟨fun g rest hw hq => ?enter, fun h => ?full, ?presence, fun h => ?idle⟩
  case enter =>
    intro t enters
    have htake : takeWaitingFrame s = enterQueue g { s with line := { s.line with waiting := rest } } := by
      rw [takeWaitingFrame, hw]
      exact if_pos hq
    have run {u : State} (hk : g.body.kind ≠ .credit) (hu : frameEntered g t = u) (hset : u.settled = true) : enters u :=
      runEvent_ends hp (htake.trans ((enterQueue_eq hk _).trans hu)) hset
    have same {u : State} (h1 : u.seq = s.seq) (h2 : u.prm = s.prm) : u.settled = true :=
      settled_of_same hs (by rw [h1]) (by rw [h1]) (by rw [h1]) h2
    refine ⟨fun hk => ?_, fun id v hb => ?_, fun id q k hb => ?_, fun id q d hb => ?_, fun id v a b c hb => ?_, fun n k v hb => ?_,
      fun r hb => ⟨fun hr => ?_, fun a d hr hd hside => ?_⟩, fun lane n hb hn => ?_⟩
    · refine run (fun e => by rw [e] at hk; simp at hk) (frameEntered_plain (fun hm => ?_) t) (same rfl rfl)
      revert hk hm
      cases g.body.kind <;> decide
    · exact run (by rw [hb]; nofun) (frameEntered_locate hb t) (same rfl rfl)
    · exact run (by rw [hb]; nofun) (frameEntered_offer hb t) (same rfl rfl)
    · exact run (by rw [hb]; nofun) (frameEntered_award hb t) (same rfl rfl)
    · exact run (by rw [hb]; nofun) (frameEntered_fetch hb t) (same rfl rfl)
    · refine run (by rw [hb]; nofun) (frameEntered_promptNotice hb t) ?_
      refine updPrompt_notice_settled (s := t) (same rfl rfl) fun p => ?_
      split <;> rfl
    · exact run (by rw [hb]; nofun) (frameEntered_deposit hb hr t) (same rfl rfl)
    · exact run (by rw [hb]; nofun) (frameEntered_resend hb hr (by rw [hd]; exact hside)) (same (by simp [t]) (by simp [t]))
    · intro same'
      have hsame : (rest.filter fun w => !same' w) = rest.filter fun w => ¬ same' w = true := by
        refine List.filter_congr fun w _ => ?_
        cases same' w <;> rfl
      refine runEvent_ends hp (htake.trans ?_) (same rfl rfl)
      rw [enterQueue, frameEntered_plain (by rw [hb]; simp [Body.kind])]
      simp only [hb, foldl_addCredit lane _ g hb hn]
      rw [← hsame]
  case full =>
    refine runEvent_ends (f := takeWaitingFrame) hp ?_ hs
    obtain h | h := h
    · exact takeWaitingFrame_full h
    · rw [takeWaitingFrame, h]
  case presence =>
    intro h0 hline t
    have hexp : presenceExpired s = offerHello t := if_pos ⟨h0, hline⟩
    refine ⟨fun hh => ?_, fun hh hroom => ?_⟩
    · refine runEvent_ends hp (hexp.trans ?_) (settled_of_same hs rfl rfl rfl rfl)
      exact if_pos hh
    · refine runEvent_ends hp (hexp.trans ?_) (settled_of_same hs rfl rfl rfl rfl)
      have hno : ¬ t.helloPending = true := fun e => Bool.false_ne_true (hh.symm.trans e)
      exact (if_neg hno).trans (offerTx_room (s := t) hroom none (.hello t.helloNow) (fun _ => rfl) nofun)
  case idle =>
    exact runEvent_ends (f := presenceExpired) hp (if_neg fun e => h e.1) hs

end
end Sys2Proof.Machine


/-! The requests of this station: rules for the origin table, offer rounds, awards and how a request ends. -/

namespace Sys2Proof.Machine

-- One proof at a time: proofs that wait for each other on threads of their own would reserve more stack than the check allows.
set_option Elab.async false

section
variable {s t : State}

/-! ### The origin table -/

/-- A change of an origin record that leaves it the same request, live or ended. -/
def KeepsRequest (g : OriginRec → OriginRec) : Prop := ∀ o, (g o).id = o.id ∧ (g o).ended = o.ended

theorem KeepsRequest.comp {f g : OriginRec → OriginRec} (hg : KeepsRequest g) (hf : KeepsRequest f) : KeepsRequest fun o => g (f o) :=
  fun o => ⟨(hg _).1.trans (hf o).1, (hg _).2.trans (hf o).2⟩

theorem origin_updOrigin {g : OriginRec → OriginRec} (hg : KeepsRequest g) (id x : ReqId) (s : State) :
    (updOrigin id g s).origin x = (s.origin x).map fun o => if o.id = id then g o else o := by
  have hpred : ((fun o : OriginRec => decide (o.id = x) && o.ended.isNone) ∘ fun o => if o.id = id then g o else o)
      = fun o => decide (o.id = x) && o.ended.isNone := by
    funext o
    simp only [Function.comp_apply]
    split
    · rw [(hg o).1, (hg o).2]
    · rfl
  simp only [State.origin, updOrigin, updWhere, List.find?_map, decide_eq_true_eq, hpred]

theorem origin_spec {id : ReqId} {o : OriginRec} (h : s.origin id = some o) : o.id = id ∧ o.ended = none := by
  have := List.find?_some h
  simpa using this

theorem origin_updOrigin_same {g : OriginRec → OriginRec} (hg : KeepsRequest g) {id : ReqId} {o : OriginRec} (h : s.origin id = some o) :
    (updOrigin id g s).origin id = some (g o) := by
  rw [origin_updOrigin hg, h, Option.map_some, if_pos (origin_spec h).1]

theorem origin_updOrigin_other {g : OriginRec → OriginRec} (hg : KeepsRequest g) {id x : ReqId} (h : x ≠ id) (s : State) :
    (updOrigin id g s).origin x = s.origin x := by
  rw [origin_updOrigin hg]
  cases hx : s.origin x with
  | none => rfl
  | some o => rw [Option.map_some, if_neg (by rw [(origin_spec hx).1]; exact h)]

theorem updOrigin_updOrigin {f g : OriginRec → OriginRec} (hf : KeepsRequest f) (id : ReqId) (s : State) :
    updOrigin id g (updOrigin id f s) = updOrigin id (fun o => g (f o)) s := by
  have hl : updWhere (fun o : OriginRec => o.id = id) g (updWhere (fun o => o.id = id) f s.neg.origins)
      = updWhere (fun o => o.id = id) (fun o => g (f o)) s.neg.origins := by
    simp only [updWhere, List.map_map]
    refine List.map_congr_left fun o _ => ?_
    simp only [Function.comp_apply, decide_eq_true_eq]
    by_cases h : o.id = id
    · rw [if_pos h, if_pos h, if_pos ((hf o).1.trans h)]
    · rw [if_neg h, if_neg h, if_neg h]
  simp only [updOrigin, hl]

/-- A request that stands last in the table, and whose id no other has, is changed alone. -/
theorem updOrigin_last {l : List OriginRec} {r : OriginRec} (h : ∀ o ∈ l, o.id ≠ r.id) (ho : s.neg.origins = l ++ [r])
    (g : OriginRec → OriginRec) : updOrigin r.id g s = { s with neg := { s.neg with origins := l ++ [g r] } } := by
  have hl : updWhere (fun o : OriginRec => o.id = r.id) g (l ++ [r]) = l ++ [g r] := by
    have : l.map (fun o => if decide (o.id = r.id) = true then g o else o) = l := by
      refine (List.map_congr_left fun o ho => ?_).trans (List.map_id' l)
      simp only [decide_eq_true_eq, if_neg (h o ho)]
    simp only [updWhere, List.map_append, this, List.map_cons, List.map_nil, decide_true, if_true]
  rw [updOrigin, ho, hl]

/-! ### Frames offered with room -/

/-- A frame offered with room stands at the tail of the queue, and what its entry starts is started (R35). -/
theorem offerTx_queueing (h : s.lineRoom = true) {dst : Option Nat} {b : Body} (hb : b.kind ≠ .credit) :
    offerTx ⟨dst, b, false, 0, false⟩ s = (frameEntered ⟨dst, b, false, 0, false⟩ s).queueing dst b :=
  offerTx_enters h _ fun l n e => hb (by rw [show b = .credit l n from e]; rfl)

/-- A frame whose entry starts nothing, offered with room (R35). -/
theorem offerTx_plain (h : s.lineRoom = true) {dst : Option Nat} {b : Body} (hb : b.kind ≠ .credit)
    (hp : b.kind ∉ [.locate, .offer, .award, .fetch, .promptNotice, .deposit]) :
    offerTx ⟨dst, b, false, 0, false⟩ s = s.queueing dst b := by
  rw [offerTx_queueing h hb, frameEntered_plain hp]

theorem offerTo_plain (h : s.lineRoom = true) {a : Nat} {b : Body} (hb : b.kind ≠ .credit)
    (hp : b.kind ∉ [.locate, .offer, .award, .fetch, .promptNotice, .deposit]) : offerTo a b s = s.queueing (some a) b :=
  offerTx_plain h hb hp

/-! ### LOCATE -/

/-- A request as a LOCATE for it is offered (R51). -/
def OriginRec.tried (o : OriginRec) : OriginRec := { o with locateAttempts := o.locateAttempts + 1, locateWindow := none }

/-- A request as its LOCATE enters the queue (R51). -/
def OriginRec.locateEntered (w : Nat) (o : OriginRec) : OriginRec :=
  if o.ended.isNone = true ∧ o.state = .locating then { o with locateWindow := some w } else o

theorem tried_keeps : KeepsRequest OriginRec.tried := fun _ => ⟨rfl, rfl⟩

theorem locateEntered_keeps (w : Nat) : KeepsRequest (OriginRec.locateEntered w) := fun o => by
  unfold OriginRec.locateEntered
  split <;> exact ⟨rfl, rfl⟩

/-- LOCATE is broadcast with room (R51). -/
theorem sendLocate_eq (h : s.lineRoom = true) {id : ReqId} {o : OriginRec} (ho : s.origin id = some o) :
    sendLocate id s = (updOrigin id (fun o => o.tried.locateEntered s.timers.locateWindow) s).queueing none (.locate id o.volser) := by
  have hoffer : offerAll (.locate id o.volser) (updOrigin id OriginRec.tried s)
      = (updOrigin id (OriginRec.locateEntered s.timers.locateWindow) (updOrigin id OriginRec.tried s)).queueing none (.locate id o.volser) :=
    (offerTx_queueing (s := updOrigin id _ s) h (by simp [Body.kind])).trans (congrArg (State.queueing none _) (frameEntered_locate rfl _))
  rw [updOrigin_updOrigin tried_keeps] at hoffer
  rw [sendLocate, ho]
  exact hoffer

theorem tried_locateEntered {id : ReqId} {o : OriginRec} (ho : s.origin id = some o) (hst : o.state = .locating) (w : Nat) :
    o.tried.locateEntered w = { o with locateAttempts := o.locateAttempts + 1, locateWindow := some w } :=
  if_pos ⟨by rw [show o.tried.ended = o.ended from rfl, (origin_spec ho).2]; rfl, hst⟩

/-! ### The offer round -/

/-- The state with a bid table. -/
def State.withBids (s : State) (l : List BidRec) : State := { s with neg := { s.neg with bids := l } }

/-- The bid table once a station that qualifies has bid (R55). -/
def State.bidsAfter (s : State) (id : ReqId) (own : Option Nat) : List BidRec :=
  match own with
  | some _ => (s.neg.bids.filter fun b : BidRec => b.id ≠ id) ++ [(⟨id, s.timers.bidWindow + s.timers.awardAnswer⟩ : BidRec)]
  | none => s.neg.bids

/-- The bid list of a request whose own station bids alone (R53). -/
def State.ownBids (s : State) (write : Bool) (loc : ReelLocation) (own : Option Nat) : List Bid :=
  match own with
  | some d => [⟨s.addr, s.estimate write loc d, d⟩]
  | none => []

theorem recordBid_eq (id : ReqId) (d : Nat) (s : State) : recordBid id s = s.withBids (s.bidsAfter id (some d)) := by
  have hf : (s.neg.bids.filter fun b : BidRec => b.id != id) = s.neg.bids.filter fun b : BidRec => b.id ≠ id :=
    List.filter_congr fun b _ => by rw [Bool.eq_iff_iff]; simp
  simp only [recordBid, State.withBids, State.bidsAfter, hf]

/-- A request as an offer round begins (R53). -/
def OriginRec.reoffered (n : Nat) (o : OriginRec) : OriginRec :=
  { o with state := .offered, round := n, bids := [], awardsMade := 0, bidWindow := none, locateWindow := none }

/-- A request as its OFFER enters the queue (R53). -/
def OriginRec.offerEntered (w : Nat) (o : OriginRec) : OriginRec :=
  if o.ended.isNone = true ∧ o.state = .offered then { o with bidWindow := some w } else o

/-- A request with a bid in its list (R56). -/
def OriginRec.bidBy (b : Bid) (o : OriginRec) : OriginRec :=
  { o with bids := insertBid b (o.bids.filter fun x => x.station ≠ b.station) }

/-- A request as this station's own bid, if it makes one, enters its list (R53). -/
def OriginRec.ownBid (l : List Bid) (o : OriginRec) : OriginRec := l.foldr OriginRec.bidBy o

theorem reoffered_keeps (n : Nat) : KeepsRequest (OriginRec.reoffered n) := fun _ => ⟨rfl, rfl⟩

theorem offerEntered_keeps (w : Nat) : KeepsRequest (OriginRec.offerEntered w) := fun o => by
  unfold OriginRec.offerEntered
  split <;> exact ⟨rfl, rfl⟩

theorem bidBy_keeps (b : Bid) : KeepsRequest (OriginRec.bidBy b) := fun _ => ⟨rfl, rfl⟩

/-- A request as an offer round leaves it: its OFFER queued, and the own bid in its list (R53). -/
def OriginRec.offeredWith (n w : Nat) (l : List Bid) (o : OriginRec) : OriginRec := ((o.reoffered n).offerEntered w).ownBid l

theorem offeredWith_keeps (n w : Nat) (l : List Bid) : KeepsRequest (OriginRec.offeredWith n w l) := by
  have hbase := (offerEntered_keeps w).comp (reoffered_keeps n)
  induction l with
  | nil => exact hbase
  | cons b l ih => exact (bidBy_keeps b).comp ih

/-- A live request after an offer round that the own station bids in, or not (R53). -/
theorem offeredWith_eq {id : ReqId} {o : OriginRec} (ho : s.origin id = some o) (n w : Nat) (write : Bool) (loc : ReelLocation)
    (own : Option Nat) : o.offeredWith n w (s.ownBids write loc own) = { o with
      state := .offered, round := n, awardsMade := 0, locateWindow := none, bidWindow := some w, bids := s.ownBids write loc own } := by
  have hopen : (o.reoffered n).offerEntered w = { o.reoffered n with bidWindow := some w } :=
    if_pos ⟨by rw [show (o.reoffered n).ended = o.ended from rfl, (origin_spec ho).2]; rfl, rfl⟩
  rw [OriginRec.offeredWith, hopen]
  cases own <;> rfl

/-- An offer round of this station's request begins, with room for its OFFER (R53). -/
theorem offerRound_eq (h : s.lineRoom = true) {id : ReqId} (hid : id.station = s.addr) {o : OriginRec} (ho : s.origin id = some o) (n : Nat) :
    let own := s.qualifies id o.spec o.terms.loc
    offerRound id n s = ((updOrigin id (OriginRec.offeredWith n s.timers.bidWindow (s.ownBids o.write o.terms.loc own)) s).withBids
      (s.bidsAfter id own)).queueing none (.offer id o.terms o.spec) := by
  intro own
  have ho1 : (updOrigin id (OriginRec.reoffered n) s).origin id = some (o.reoffered n) := origin_updOrigin_same (reoffered_keeps n) ho
  have hoffer : offerAll (.offer id o.terms o.spec) (updOrigin id (OriginRec.reoffered n) s)
      = (updOrigin id (OriginRec.offerEntered s.timers.bidWindow) (updOrigin id (OriginRec.reoffered n) s)).queueing none
        (.offer id o.terms o.spec) :=
    (offerTx_queueing (s := updOrigin id _ s) h (by simp [Body.kind])).trans (congrArg (State.queueing none _) (frameEntered_offer rfl _))
  rw [updOrigin_updOrigin (reoffered_keeps n)] at hoffer
  have hround : offerRound id n s = bidFor id o.write o.spec o.terms.loc
      ((updOrigin id (fun o => (o.reoffered n).offerEntered s.timers.bidWindow) s).queueing none (.offer id o.terms o.spec)) := by
    have hunfold : offerRound id n s = match (updOrigin id (OriginRec.reoffered n) s).origin id with
      | some o => bidFor id o.write o.spec o.terms.loc (offerAll (.offer id o.terms o.spec) (updOrigin id (OriginRec.reoffered n) s))
      | none => updOrigin id (OriginRec.reoffered n) s := rfl
    rw [hunfold, ho1, ← hoffer]
    rfl
  generalize hu : (updOrigin id (fun o => (o.reoffered n).offerEntered s.timers.bidWindow) s).queueing none (.offer id o.terms o.spec) = u at hround
  have hq : u.qualifies id o.spec o.terms.loc = own := by subst hu; rfl
  rw [hround, bidFor, hq]
  cases hown : own with
  | none => subst hu; rfl
  | some d =>
    have hself : id.station = (recordBid id u).addr := by subst hu; exact hid
    have hou : (recordBid id u).origin id = some ((o.reoffered n).offerEntered s.timers.bidWindow) := by
      subst hu
      exact origin_updOrigin_same ((offerEntered_keeps _).comp (reoffered_keeps n)) ho
    have hst : ((o.reoffered n).offerEntered s.timers.bidWindow).state = .offered := by
      unfold OriginRec.offerEntered
      split <;> rfl
    simp only [sendBid, if_pos hself]
    rw [onBid_of_offered hou hst, recordBid_eq id d]
    subst hu
    exact congrArg (fun v : State => (v.withBids (s.bidsAfter id (some d))).queueing none (.offer id o.terms o.spec))
      (updOrigin_updOrigin (g := OriginRec.bidBy ⟨s.addr, s.estimate o.write o.terms.loc d, d⟩)
        ((offerEntered_keeps s.timers.bidWindow).comp (reoffered_keeps n)) id s)

end
end Sys2Proof.Machine


/-! Awards: the accept check, the record an accept makes, and the award that moves on. -/

namespace Sys2Proof.Machine

-- One proof at a time: proofs that wait for each other on threads of their own would reserve more stack than the check allows.
set_option Elab.async false

section
variable {s t : State}

/-! ### The accept check -/

theorem freeDrive_iff (s : State) (d : Nat) : ((s.drive d).map DriveRec.isFree).getD false = true
    ↔ ∃ r, s.mnt.drives[d]? = some r ∧ r.state = .free ∧ r.variedOff = false := by
  unfold State.drive
  cases s.mnt.drives[d]? with
  | none => simp
  | some r => simp [DriveRec.isFree]

/-- The accept check as a chain of its five conditions (R58). -/
theorem awardRefusal_eq (s : State) (id : ReqId) (d : Nat) : s.awardRefusal id d
    = if ¬ (s.host.state = .running ∧ s.seq.arm ≠ .fault) then some .quiesced
      else if ((s.drive d).map DriveRec.isFree).getD false = false then some .driveTaken
      else if ¬ s.acct.spool.length + s.mnt.mounts.length < 496 then some .spool
      else if ¬ s.mount id = none then some .idInUse
      else if ¬ s.mnt.mounts.length < 16 then some .tableFull
      else none := by
  have h1 : (s.host.state ≠ .running ∨ s.seq.arm = .fault) ↔ ¬ (s.host.state = .running ∧ s.seq.arm ≠ .fault) := by tauto
  have h3 : Config.withdrawLevel ≤ s.held + s.live ↔ ¬ s.acct.spool.length + s.mnt.mounts.length < 496 := Nat.not_lt.symm
  have h4 : (s.mount id).isSome = true ↔ ¬ s.mount id = none := by cases s.mount id <;> simp
  have h5 : Config.mountPlaces ≤ s.live ↔ ¬ s.mnt.mounts.length < 16 := Nat.not_lt.symm
  rw [State.awardRefusal]
  exact if_congr h1 rfl (if_congr Iff.rfl rfl (if_congr h3 rfl (if_congr h4 rfl (if_congr h5 rfl rfl))))

theorem awardRefusal_none_iff (s : State) (id : ReqId) (d : Nat) : s.awardRefusal id d = none ↔ s.mayAccept id d := by
  rw [awardRefusal_eq, State.mayAccept, ← freeDrive_iff]
  constructor
  · intro h
    split at h
    · cases h
    next h1 =>
    split at h
    · cases h
    next h2 =>
    split at h
    · cases h
    next h3 =>
    split at h
    · cases h
    next h4 =>
    split at h
    · cases h
    next h5 =>
    exact ⟨not_not.mp h1, by simpa using h2, not_not.mp h3, not_not.mp h4, not_not.mp h5⟩
  · rintro ⟨h1, h2, h3, h4, h5⟩
    rw [if_neg (not_not.mpr h1), if_neg (by simp [h2]), if_neg (not_not.mpr h3), if_neg (not_not.mpr h4), if_neg (not_not.mpr h5)]

/-! ### The record an accept makes -/

/-- The accounts of a state in which one has an open mount more (R58). -/
theorem makeMount_eq (id : ReqId) (q : RequestTerms) (d : Nat) (s : State) :
    makeMount id q d s = { s with
      mnt := { s.mnt with
        mounts := s.mnt.mounts ++ [MountRec.make id q d (s.reservedEstimate q.loc d)]
        drives := s.mnt.drives.modify d fun r => { r with state := .allocated, mountId := some id } }
      acct := (makeMount id q d s).acct } := by
  rw [makeMount, evalSpool_eq]
  rfl

theorem makeMount_acct (id : ReqId) (q : RequestTerms) (d : Nat) (s : State) :
    (makeMount id q d s).account q.account = { s.account q.account with openMounts := (s.account q.account).openMounts + 1 }
      ∧ (∀ n, n ≠ q.account → (makeMount id q d s).account n = s.account n) ∧ (makeMount id q d s).acct.spool = s.acct.spool := by
  have hacc (u : State) (n : Nat) : (evalSpool u).account n = u.account n := by rw [evalSpool_next]; rfl
  have hspool (u : State) : (evalSpool u).acct.spool = u.acct.spool := by rw [evalSpool_next]
  rw [makeMount]
  refine ⟨?_, fun n hn => ?_, hspool _⟩
  · rw [hacc]
    exact account_updAccount_same ..
  · rw [hacc]
    exact account_updAccount_other _ _ hn

theorem mount_make {id : ReqId} {q : RequestTerms} {d : Nat} (h : s.mount id = none) :
    (makeMount id q d s).mount id = some (MountRec.make id q d (s.reservedEstimate q.loc d))
      ∧ ∀ x, x ≠ id → (makeMount id q d s).mount x = s.mount x := by
  have hm (x : ReqId) : (makeMount id q d s).mount x
      = (s.mount x).or (if id = x then some (MountRec.make id q d (s.reservedEstimate q.loc d)) else none) := by
    rw [makeMount_eq]
    simp only [State.mount, List.find?_append]
    congr 1
    by_cases hx : id = x <;> simp [hx, MountRec.make]
  refine ⟨by rw [hm, h, if_pos rfl]; rfl, fun x hx => ?_⟩
  rw [hm, if_neg (Ne.symm hx), Option.or_none]

/-! ### FETCH -/

/-- A record as its FETCH enters the queue (R98). -/
def MountRec.fetchEntered (w : Nat) (m : MountRec) : MountRec := if m.stage = .sourcing then { m with arrivalLimit := some w } else m

theorem fetchEntered_id (w : Nat) (m : MountRec) : (m.fetchEntered w).id = m.id := by
  unfold MountRec.fetchEntered
  split <;> rfl

theorem mount_updMount_same {f : MountRec → MountRec} (hf : ∀ m, (f m).id = m.id) {id : ReqId} {m : MountRec} (h : s.mount id = some m) :
    (updMount id f s).mount id = some (f m) := by
  rw [mount_updMount id id f hf, h, Option.map_some, if_pos (mount_spec h).2]

theorem mount_updMount_other {f : MountRec → MountRec} (hf : ∀ m, (f m).id = m.id) {id x : ReqId} (h : x ≠ id) (s : State) :
    (updMount id f s).mount x = s.mount x := by
  rw [mount_updMount id x f hf]
  cases hx : s.mount x with
  | none => rfl
  | some m => rw [Option.map_some, if_neg (by rw [(mount_spec hx).2]; exact h)]

/-- Sourcing of a reel at another station queues FETCH for it, and the arrival limit runs (R98). -/
theorem beginSourcing_fetch (h : s.lineRoom = true) (id : ReqId) {q : RequestTerms} {a : Nat} (hq : q.loc.station = some a)
    (ha : a ≠ s.addr) (d : Nat) : beginSourcing id q d s
      = (updMount id (MountRec.fetchEntered s.timers.arrivalLimit) s).queueing (some a) (.fetch id q.volser q.loc.slot s.addr q.cls) := by
  simp only [beginSourcing, hq, if_neg ha, offerTo]
  exact (offerTx_queueing h (by simp [Body.kind])).trans (congrArg (State.queueing _ _) (frameEntered_fetch rfl _))

/-! ### An award made -/

/-- A request as its award to the head of its bid list is made (R57). -/
def OriginRec.headTaken (b : Bid) (o : OriginRec) : OriginRec :=
  { o with state := .awarding, awardsMade := o.awardsMade + 1, awardee := some b.station, bidWindow := none, awardAnswer := none }

/-- A request as its AWARD enters the queue (R57). -/
def OriginRec.awardEntered (dst : Option Nat) (w : Nat) (o : OriginRec) : OriginRec :=
  if o.ended.isNone = true ∧ o.state = .awarding ∧ o.awardee = dst then { o with awardAnswer := some w } else o

/-- A request whose award has moved on (R60). -/
def OriginRec.movedOn (o : OriginRec) : OriginRec := { o with bids := o.bids.tail, awardee := none, awardAnswer := none }

/-- A request whose award has been accepted (R59). -/
def OriginRec.accepted (w : Nat) (o : OriginRec) : OriginRec := { o with state := .awarded, awardAnswer := none, watch := some w }

theorem headTaken_keeps (b : Bid) : KeepsRequest (OriginRec.headTaken b) := fun _ => ⟨rfl, rfl⟩

theorem awardEntered_keeps (dst : Option Nat) (w : Nat) : KeepsRequest (OriginRec.awardEntered dst w) := fun o => by
  unfold OriginRec.awardEntered
  split <;> exact ⟨rfl, rfl⟩

theorem movedOn_keeps : KeepsRequest OriginRec.movedOn := fun _ => ⟨rfl, rfl⟩

theorem accepted_keeps (w : Nat) : KeepsRequest (OriginRec.accepted w) := fun _ => ⟨rfl, rfl⟩

/-- A request with a bid at the head of its list is awarded to it (R57). -/
theorem awardHead_succ {id : ReqId} {o : OriginRec} {b : Bid} {rest : List Bid} (ho : s.origin id = some o) (hb : o.bids = b :: rest)
    (hn : o.awardsMade < 3) (k : Nat) : awardHead (k + 1) id s
      = if b.station = s.addr then
          match s.awardRefusal id b.drive with
          | some _ => awardHead k id (dropHead id (dropBid id (takeHead id b s)))
          | none => acceptMount id o.terms b.drive (dropBid id (takeHead id b s))
        else offerTo b.station (.award id o.terms b.drive) (takeHead id b s) := by
  have hmay : o.mayAward = true := by
    simp only [OriginRec.mayAward, hb, decide_eq_true hn, List.isEmpty_cons, Bool.not_false, Bool.and_self]
  rw [awardHead]
  simp only [ho, hb, hmay, if_true]
  rfl

/-- A request as an award to another station leaves it (R57). -/
def OriginRec.awardedTo (b : Bid) (w : Nat) (o : OriginRec) : OriginRec := (o.headTaken b).awardEntered (some b.station) w

theorem awardedTo_keeps (b : Bid) (w : Nat) : KeepsRequest (OriginRec.awardedTo b w) :=
  (awardEntered_keeps _ w).comp (headTaken_keeps b)

theorem awardedTo_eq {o : OriginRec} (ho : o.ended = none) (b : Bid) (w : Nat) : o.awardedTo b w = { o with
    state := .awarding, awardsMade := o.awardsMade + 1, awardee := some b.station, bidWindow := none, awardAnswer := some w } :=
  if_pos ⟨by rw [show (o.headTaken b).ended = o.ended from rfl, ho]; rfl, rfl, rfl⟩

/-- The award of a bid of another station (R57). -/
theorem awardHead_other (h : s.lineRoom = true) {id : ReqId} {o : OriginRec} {b : Bid} {rest : List Bid} (ho : s.origin id = some o)
    (hb : o.bids = b :: rest) (hn : o.awardsMade < 3) (ha : b.station ≠ s.addr) (k : Nat) : awardHead (k + 1) id s
      = (updOrigin id (OriginRec.awardedTo b s.timers.awardAnswer) s).queueing (some b.station) (.award id o.terms b.drive) := by
  rw [awardHead_succ ho hb hn, if_neg ha]
  have hoffer : offerTo b.station (.award id o.terms b.drive) (takeHead id b s)
      = (updOrigin id (OriginRec.awardEntered (some b.station) s.timers.awardAnswer) (updOrigin id (OriginRec.headTaken b) s)).queueing
        (some b.station) (.award id o.terms b.drive) :=
    (offerTx_queueing (s := takeHead id b s) h (by simp [Body.kind])).trans (congrArg (State.queueing _ _) (frameEntered_award rfl _))
  rw [updOrigin_updOrigin (headTaken_keeps b)] at hoffer
  exact hoffer

/-- The award that has moved on to a bid of another station (R60). -/
theorem moveOn_other (h : s.lineRoom = true) {id : ReqId} {o : OriginRec} {b c : Bid} {rest : List Bid} (ho : s.origin id = some o)
    (hst : o.state = .awarding) (hb : o.bids = b :: c :: rest) (hn : o.awardsMade < 3) (hc : c.station ≠ s.addr) :
    (moveOn id s).origin id = some { o with
        bids := c :: rest, awardee := some c.station, awardsMade := o.awardsMade + 1
        awardAnswer := some s.timers.awardAnswer, bidWindow := none }
      ∧ (∀ x, x ≠ id → (moveOn id s).origin x = s.origin x)
      ∧ moveOn id s = { s.queueing (some c.station) (.award id o.terms c.drive) with neg := (moveOn id s).neg }
      ∧ (moveOn id s).neg.bids = s.neg.bids ∧ (moveOn id s).neg.notices = s.neg.notices
      ∧ (moveOn id s).neg.seqCounter = s.neg.seqCounter := by
  have hkeeps := (awardedTo_keeps c s.timers.awardAnswer).comp movedOn_keeps
  have heq : moveOn id s = (updOrigin id (fun o => o.movedOn.awardedTo c s.timers.awardAnswer) s).queueing (some c.station)
      (.award id o.terms c.drive) := by
    have := awardHead_other (s := updOrigin id OriginRec.movedOn s) h (origin_updOrigin_same movedOn_keeps ho)
      (show o.movedOn.bids = c :: rest by rw [OriginRec.movedOn, hb]; rfl) hn hc 2
    rw [updOrigin_updOrigin movedOn_keeps] at this
    exact this
  rw [heq]
  refine ⟨(origin_updOrigin_same hkeeps ho).trans ?_, fun x hx => origin_updOrigin_other hkeeps hx s, rfl, rfl, rfl, rfl⟩
  rw [awardedTo_eq (show o.movedOn.ended = none from (origin_spec ho).2)]
  simp only [OriginRec.movedOn, hb, hst, List.tail_cons]

/-! ### An award to this station itself -/

/-- An ACCEPT from the awardee (R59). -/
theorem takeAccept_awardee {id : ReqId} {o : OriginRec} {a : Nat} (ho : s.origin id = some o) (hst : o.state = .awarding)
    (ha : o.awardee = some a) (f : State → State) :
    takeAccept a id f s = updOrigin id (OriginRec.accepted s.timers.mountWatch) s := by
  simp only [takeAccept, ho, hst, ha, and_self, if_true]
  rfl

/-- Any other ACCEPT is late (R59). -/
theorem takeAccept_late {id : ReqId} {a : Nat} (h : ∀ o, s.origin id = some o → o.state ≠ .awarding ∨ o.awardee ≠ some a)
    (f : State → State) : takeAccept a id f s = f s := by
  unfold takeAccept
  split
  · next o ho => exact if_neg fun ⟨h1, h2⟩ => (h o ho).elim (fun e => e h1) fun e => e h2
  · rfl

/-- The request of an award to this station itself that is accepted, here for a reel at another station (R45, R58, R59). -/
theorem acceptMount_own (h : s.lineRoom = true) {id : ReqId} (hid : id.station = s.addr) {o : OriginRec} {q : RequestTerms} {d a : Nat}
    (ho : s.origin id = some o) (hst : o.state = .awarding) (haw : o.awardee = some s.addr) (hm : s.mount id = none)
    (hq : q.loc.station = some a) (ha : a ≠ s.addr) :
    acceptMount id q d s = (updMount id (MountRec.fetchEntered s.timers.arrivalLimit)
      (updOrigin id (OriginRec.accepted s.timers.mountWatch) (makeMount id q d s))).queueing (some a)
        (.fetch id q.volser q.loc.slot s.addr q.cls) := by
  have hmade := makeMount_eq id q d s
  have haddr : (makeMount id q d s).addr = s.addr := by rw [hmade]; rfl
  have htimers : (makeMount id q d s).timers = s.timers := by rw [hmade]; rfl
  have hroom : (makeMount id q d s).lineRoom = true := by rw [hmade]; exact h
  have horigin : (makeMount id q d s).origin id = some o := by rw [hmade]; exact ho
  have haccept := takeAccept_awardee horigin hst haw (closeRevoked id)
  rw [htimers] at haccept
  have hsome : ((updOrigin id (OriginRec.accepted s.timers.mountWatch) (makeMount id q d s)).mount id).isSome = true := by
    rw [show State.mount (updOrigin id _ (makeMount id q d s)) id = (makeMount id q d s).mount id from rfl, (mount_make hm).1]
    rfl
  have hsource := beginSourcing_fetch (s := updOrigin id (OriginRec.accepted s.timers.mountWatch) (makeMount id q d s)) hroom id hq
    (by rw [← haddr] at ha; exact ha) d
  rw [acceptMount]
  simp only [haddr, if_pos hid, haccept]
  rw [if_pos hsome, hsource]
  show State.queueing _ (.fetch _ _ _ (makeMount id q d s).addr _) (updMount id (MountRec.fetchEntered (makeMount id q d s).timers.arrivalLimit) _) = _
  rw [haddr, htimers]

theorem filter_bne_id (l : List BidRec) (id : ReqId) : (l.filter fun b => b.id != id) = l.filter fun b => b.id ≠ id :=
  List.filter_congr fun b _ => by rw [Bool.eq_iff_iff]; simp

theorem dropBid_eq (id : ReqId) (s : State) : dropBid id s = s.withBids (s.neg.bids.filter fun b => b.id ≠ id) := by
  rw [← filter_bne_id]
  rfl

/-- This station's own bid at the head of the list is awarded (R45, R57 to R60). -/
theorem awardHead_own (h : s.lineRoom = true) {id : ReqId} (hid : id.station = s.addr) {o : OriginRec} {b : Bid} {rest : List Bid}
    (ho : s.origin id = some o) (hb : o.bids = b :: rest) (hn : o.awardsMade < 3) (hown : b.station = s.addr) (k : Nat) :
    s.awardsItself id o b rest (awardHead (k + 2) id s) := by
  have hhead : awardHead (k + 2) id s = _ := (awardHead_succ ho hb hn (k + 1)).trans (if_pos hown)
  have ho1 : (dropBid id (takeHead id b s)).origin id = some (o.headTaken b) := origin_updOrigin_same (headTaken_keeps b) ho
  have hother (x : ReqId) (hx : x ≠ id) : (dropBid id (takeHead id b s)).origin x = s.origin x :=
    origin_updOrigin_other (headTaken_keeps b) hx s
  have hbids : (dropBid id (takeHead id b s)).neg.bids = s.neg.bids.filter fun x => x.id ≠ id := by rw [dropBid_eq]; rfl
  refine ⟨fun hmay a hq ha => ?accepted, fun hmay c t hrest hc hn2 => ?declined⟩
  case accepted =>
    rw [(awardRefusal_none_iff s id b.drive).mpr hmay] at hhead
    obtain ⟨-, -, -, hnone, -⟩ := hmay
    have hm : (dropBid id (takeHead id b s)).mount id = none := hnone
    have hacc := acceptMount_own (s := dropBid id (takeHead id b s)) (d := b.drive) h hid ho1 rfl (congrArg some hown) hm hq ha
    have hmade := makeMount_eq id o.terms b.drive (dropBid id (takeHead id b s))
    obtain ⟨hacct, haccts, hspool⟩ := makeMount_acct id o.terms b.drive (dropBid id (takeHead id b s))
    obtain ⟨hmount, hmounts⟩ := mount_make (q := o.terms) (d := b.drive) hm
    rw [hhead]
    simp only [hacc]
    generalize makeMount id o.terms b.drive (dropBid id (takeHead id b s)) = v at *
    refine ⟨?_, ⟨?_, fun x hx => ?_, ?_, hacct, haccts, hspool⟩, ?_, ⟨fun x hx => ?_, ?_, ?_, ?_⟩, ?_, ?_, ?_, ?_, ?_, ?_⟩
    · have hvo : v.origin id = some (o.headTaken b) := by rw [hmade]; exact ho1
      refine (origin_updOrigin_same (accepted_keeps _) hvo).trans ?_
      simp only [OriginRec.accepted, OriginRec.headTaken, hb, hown]
      rfl
    · exact mount_updMount_same (fetchEntered_id _) hmount
    · exact (mount_updMount_other (fetchEntered_id _) hx _).trans (hmounts x hx)
    · show v.mnt.drives = _
      rw [hmade]
      rfl
    · exact congrArg (fun l : LineUnit => { l with
        queue := l.queue ++ [(⟨some a, .fetch id o.volser o.terms.loc.slot s.addr o.cls, false, 0, false⟩ : TxFrame)] }) (congrArg State.line hmade)
    · refine (origin_updOrigin_other (accepted_keeps _) hx v).trans ?_
      rw [hmade]
      exact hother x hx
    · show v.neg.bids = _
      rw [hmade, hbids]
    · exact congrArg (·.neg.notices) hmade
    · exact congrArg (·.neg.seqCounter) hmade
    · exact (congrArg State.host hmade :)
    · exact (congrArg State.dir hmade :)
    · exact (congrArg State.seq hmade :)
    · exact (congrArg State.lane hmade :)
    · exact (congrArg State.prm hmade :)
    · exact (congrArg State.wear hmade :)
  case declined =>
    cases hr : s.awardRefusal id b.drive with
    | none => exact absurd ((awardRefusal_none_iff s id b.drive).mp hr) hmay
    | some r =>
      rw [hr] at hhead
      have hdrop : (dropHead id (dropBid id (takeHead id b s))).origin id = some (o.headTaken b).movedOn :=
        origin_updOrigin_same movedOn_keeps ho1
      have hbids2 : (o.headTaken b).movedOn.bids = c :: t := by
        rw [OriginRec.movedOn, OriginRec.headTaken, hb, hrest]
        rfl
      have hnext := awardHead_other (s := dropHead id (dropBid id (takeHead id b s))) h hdrop hbids2 hn2 hc k
      rw [hhead]
      simp only [hnext]
      refine ⟨(origin_updOrigin_same (awardedTo_keeps _ _) hdrop).trans ?_, ⟨fun x hx => ?_, hbids, rfl, rfl⟩, rfl⟩
      · rw [awardedTo_eq (show (o.headTaken b).movedOn.ended = none from (origin_spec ho).2)]
        simp only [OriginRec.movedOn, OriginRec.headTaken, hb, List.tail_cons]
        rfl
      · exact (origin_updOrigin_other (awardedTo_keeps _ _) hx _).trans ((origin_updOrigin_other movedOn_keeps hx _).trans (hother x hx))

/-- The award that has moved on to this station's own bid (R45, R60). -/
theorem moveOn_own (h : s.lineRoom = true) {id : ReqId} (hid : id.station = s.addr) {o : OriginRec} {b c : Bid} {rest : List Bid}
    (ho : s.origin id = some o) (hb : o.bids = b :: c :: rest) (hn : o.awardsMade < 3) (hc : c.station = s.addr) :
    s.awardsItself id o c rest (moveOn id s) := by
  have hown := awardHead_own (s := dropHead id s) h hid (origin_updOrigin_same movedOn_keeps ho)
    (show o.movedOn.bids = c :: rest by rw [OriginRec.movedOn, hb]; rfl) hn hc 1
  have hothers (x : ReqId) (hx : x ≠ id) : (dropHead id s).origin x = s.origin x := origin_updOrigin_other movedOn_keeps hx s
  obtain ⟨hacc, hdec⟩ := hown
  refine ⟨fun hmay a hq ha => ?_, fun hmay d t hrest hd hn2 => ?_⟩
  · obtain ⟨h1, h2, h3, ⟨h4, h5⟩, h6⟩ := hacc hmay a hq ha
    exact ⟨h1, h2, h3, ⟨fun x hx => (h4 x hx).trans (hothers x hx), h5⟩, h6⟩
  · obtain ⟨h1, ⟨h4, h5⟩, h6⟩ := hdec hmay d t hrest hd hn2
    exact ⟨h1, ⟨fun x hx => (h4 x hx).trans (hothers x hx), h5⟩, h6⟩

end
end Sys2Proof.Machine


/-! Bids and requests: the drive chosen, and the frames and timers of the originator. -/

namespace Sys2Proof.Machine

-- One proof at a time: proofs that wait for each other on threads of their own would reserve more stack than the check allows.
set_option Elab.async false

section
variable {s t : State}

/-! ### The drive chosen and the estimate -/

theorem leastBy_none_iff (f : Nat → Nat) (l : List Nat) : leastBy f l = none ↔ l = [] := by
  cases l with
  | nil => simp [leastBy]
  | cons d t =>
    rw [leastBy]
    split
    · simp
    · split <;> simp

/-- In an ascending list, the first number of the least value is the lowest of those with it (R80). -/
theorem leastBy_some_iff (f : Nat → Nat) {l : List Nat} (h : l.Pairwise (· < ·)) (d : Nat) :
    leastBy f l = some d ↔ d ∈ l ∧ ∀ x ∈ l, f d ≤ f x ∧ (f d = f x → d ≤ x) := by
  induction l generalizing d with
  | nil => simp [leastBy]
  | cons a l ih =>
    rw [List.pairwise_cons] at h
    obtain ⟨ha, hl⟩ := h
    rw [leastBy]
    split
    · next hn =>
      rw [leastBy_none_iff] at hn
      subst hn
      simp only [Option.some.injEq, List.mem_singleton]
      exact ⟨fun e => by subst e; exact ⟨rfl, fun x hx => by subst hx; exact ⟨le_refl _, fun _ => le_refl _⟩⟩, fun e => e.1.symm⟩
    · next e he =>
      obtain ⟨hmem, hleast⟩ := (ih hl e).mp he
      have hae := ha e hmem
      constructor
      · intro hd
        split at hd
        · next hlt =>
          cases hd
          refine ⟨.tail _ hmem, fun x hx => ?_⟩
          obtain rfl | hx := List.mem_cons.mp hx
          · exact ⟨hlt.le, fun heq => absurd heq hlt.ne⟩
          · exact hleast x hx
        · next hge =>
          cases hd
          refine ⟨.head _, fun x hx => ?_⟩
          obtain rfl | hx := List.mem_cons.mp hx
          · exact ⟨le_refl _, fun _ => le_refl _⟩
          · exact ⟨(not_lt.mp hge).trans (hleast x hx).1, fun _ => (ha x hx).le⟩
      · rintro ⟨hd, hmin⟩
        obtain rfl | hd := List.mem_cons.mp hd
        · rw [if_neg (not_lt.mpr (hmin e (.tail _ hmem)).1)]
        · have h1 := hmin a (.head _)
          have had := ha d hd
          have hlt : f d < f a := lt_of_le_of_ne h1.1 fun heq => absurd (h1.2 heq) (not_le.mpr had)
          have hed : e = d := by
            have h2 := hleast d hd
            have h3 := hmin e (.tail _ hmem)
            have heq := le_antisymm h2.1 h3.1
            exact le_antisymm (h2.2 heq) (h3.2 heq.symm)
          rw [hed, if_pos hlt]

theorem qualifying_pairwise (s : State) (spec : DriveSpec) : (s.qualifying spec).Pairwise (· < ·) :=
  List.Pairwise.filter _ List.pairwise_lt_range

theorem mem_qualifying (s : State) (spec : DriveSpec) (d : Nat) : d ∈ s.qualifying spec
    ↔ ∃ r, s.mnt.drives[d]? = some r ∧ r.state = .free ∧ r.variedOff = false ∧ s.inSpec spec d r = true := by
  rw [State.qualifying, List.mem_filter, List.mem_range, State.drive]
  cases hd : s.mnt.drives[d]? with
  | none => simp
  | some r =>
    have := (List.getElem?_eq_some_iff.mp hd).1
    simp [this, DriveRec.isFree, and_assoc]

/-- Settles O38: the choice is the least of an ascending list, and the estimate its sum. -/
theorem driveChoiceAndEstimate : Obligations.DriveChoiceAndEstimate := by
  intro s spec loc near fits
  have hmem (d : Nat) : d ∈ s.qualifying spec ↔ fits d := mem_qualifying s spec d
  refine ⟨fun d => ?_, ?_, fun write d => ?_⟩
  · refine (leastBy_some_iff near (qualifying_pairwise s spec) d).trans ?_
    simp only [hmem]
  · refine (leastBy_none_iff near _).trans (List.eq_nil_iff_forall_not_mem.trans ?_)
    simp only [hmem]
  · have hring : ringTerm s.settings.rp write loc
        = if write = true ∧ (loc.station = none ∨ loc.ring = false) then s.settings.rp else 0 := by
      unfold ringTerm
      refine if_congr ?_ rfl rfl
      simp
    have hmp : (if loc.station.isNone then s.settings.mp else 0) = if loc.station = none then s.settings.mp else 0 :=
      if_congr Option.isNone_iff_eq_none rfl rfl
    have hwork : s.work = min 65534 s.workSum := Nat.min_comm ..
    simp only [State.estimate, State.exactEstimate, hring, hmp, hwork, near, Config.topEstimate]
    omega

/-! ### Qualifying and bidding -/

theorem laneOpen_iff (s : State) (loc : ReelLocation) : s.laneOpen loc = true ↔ ∀ a, loc.station = some a → a ≠ s.addr →
    (if a < s.addr then s.lane.west else s.lane.east).outbound = .isOpen := by
  unfold State.laneOpen
  cases loc.station with
  | none => simp
  | some a =>
    have hside : s.side (s.toward a) = if a < s.addr then s.lane.west else s.lane.east := by
      unfold State.toward
      split <;> rfl
    show (decide (a = s.addr) || decide ((s.side (s.toward a)).outbound = .isOpen)) = true ↔ _
    rw [hside, Bool.or_eq_true, decide_eq_true_eq, decide_eq_true_eq]
    exact ⟨fun h b hb hne => by cases hb; exact h.resolve_left hne, fun h => or_iff_not_imp_left.mpr (h a rfl)⟩

theorem bidRoom_iff (s : State) (id : ReqId) : s.bidRoom id = true ↔ s.neg.bids.length < 32 ∨ ∃ b ∈ s.neg.bids, b.id = id := by
  simp only [State.bidRoom, Bool.or_eq_true, decide_eq_true_eq, List.any_eq_true]
  rfl

/-- Settles O37: a station that qualifies makes its bid record and queues its BID. -/
theorem offerIsBidFor : Obligations.OfferIsBidFor := by
  refine ⟨fun s id spec loc d => ?_, fun s f id q spec hs h hid => ?_⟩
  · unfold State.qualifies
    rw [Option.ite_none_right_eq_some, laneOpen_iff, bidRoom_iff]
    simp only [and_assoc]
  · intro t
    refine ⟨fun hq => ?_, fun d hq hroom => ?_⟩
    · refine exec_overhears_ends h rfl nofun ?_ (settled_of_same hs rfl rfl rfl rfl)
      show bidFor id q.write spec q.loc t = _
      rw [bidFor, show t.qualifies id spec q.loc = none from hq]
    · refine exec_overhears_ends h rfl nofun ?_ (settled_of_same hs rfl rfl rfl rfl)
      show bidFor id q.write spec q.loc t = _
      rw [bidFor, show t.qualifies id spec q.loc = some d from hq]
      simp only [recordBid_eq id d]
      exact (if_neg hid).trans (offerTo_plain (s := t.withBids (t.bidsAfter id (some d))) (b := .bid id (t.estimate q.write q.loc d) d) hroom
        (by simp [Body.kind]) (by simp [Body.kind]))

/-! ### A request that ends -/

/-- A request that has ended (R47). -/
def OriginRec.closed (e : Ending) (o : OriginRec) : OriginRec := { o with
  bids := [], locateWindow := none, bidWindow := none, awardAnswer := none, watch := none
  ended := some e, noticeWaits := true, promptWaits := decide (e = .failed .unserved) }

theorem endRequest_eq {id : ReqId} {o : OriginRec} (ho : s.origin id = some o) (e : Ending) :
    endRequest id e s = postNeg (.mountResult id o.tag o.volser e) (updOrigin id (OriginRec.closed e) s) := by
  rw [endRequest, ho]
  rfl

theorem origin_none_iff (s : State) (id : ReqId) : s.origin id = none ↔ ∀ o ∈ s.neg.origins, o.id = id → o.ended.isSome = true := by
  rw [State.origin, List.find?_eq_none]
  refine forall₂_congr fun o _ => ?_
  cases o.ended <;> simp

theorem origin_closed (id : ReqId) (e : Ending) (s : State) : (updOrigin id (OriginRec.closed e) s).origin id = none := by
  rw [origin_none_iff]
  intro o ho hid
  obtain ⟨p, -, rfl⟩ := List.mem_map.mp ho
  split at hid
  · next h => rw [if_pos h]; rfl
  · next h => exact absurd (decide_eq_true hid) h

/-- A request that has ended stays so when the table forgets what has been told of it. -/
theorem origin_sweepOrigins {id : ReqId} (h : s.origin id = none) : (sweepOrigins s).origin id = none := by
  rw [origin_none_iff] at *
  exact fun o ho => h o (List.mem_filter.mp ho).1

theorem origin_updOrigin_none {g : OriginRec → OriginRec} (hg : KeepsRequest g) {id : ReqId} (h : s.origin id = none) :
    (updOrigin id g s).origin id = none := by
  rw [origin_updOrigin hg, h]
  rfl

/-! ### The windows -/

/-- What the arm reads is as it was: the arm is given nothing (R116). -/
theorem settle_seq_kept (hs : s.settled = true) (h1 : t.seq.arm = s.seq.arm) (h2 : t.seq.inArm = s.seq.inArm)
    (h3 : t.seq.queue = s.seq.queue) (h4 : t.prm.doorOpen = s.prm.doorOpen) (k : Bool) : (settle k t).seq = t.seq := by
  rw [settle_seq, selectArm_of_settled ((armSettled_congr h1 h2 h3 h4).trans (Bool.and_eq_true_iff.mp hs).1)]

/-- What an award to this station itself leaves, where the rules say what, is settled (R116, R157). -/
theorem awardsItself_settles (hs : s.settled = true) {id : ReqId} {o : OriginRec} {b : Bid} {rest : List Bid}
    (h : s.awardsItself id o b rest t) : s.awardsItself id o b rest (settle false t) := by
  obtain ⟨hacc, hdec⟩ := h
  refine ⟨fun hmay a hq ha => ?_, fun hmay c l hrest hc hn => ?_⟩
  · obtain ⟨-, -, -, -, -, -, hseq, -, hprm, -⟩ := hacc hmay a hq ha
    rw [settle_of_settled (settled_of_same hs (by rw [hseq]) (by rw [hseq]) (by rw [hseq]) hprm)]
    exact hacc hmay a hq ha
  · obtain ⟨-, -, heq⟩ := hdec hmay c l hrest hc hn
    have ht : t.settled = true := by
      rw [heq]
      exact settled_of_same hs rfl rfl rfl rfl
    rw [settle_of_settled ht]
    exact hdec hmay c l hrest hc hn

/-- A posting that enters at once, for a request that has ended (R61, R158). -/
theorem endUnserved_eq {id : ReqId} {o : OriginRec} (ho : s.origin id = some o) (hopen : s.openPrompts < 20) (hpost : s.prm.postings = []) :
    endUnserved id s = sweepOrigins (updOrigin id (fun o => { o with promptWaits := false })
      (addPrompt { Prompt.blank .unserved o.volser with requestId := some id }
        (postNeg (.mountResult id o.tag o.volser (.failed .unserved)) (updOrigin id (OriginRec.closed (.failed .unserved)) s)))) := by
  rw [endUnserved, ho]
  simp only [endRequest_eq ho]
  refine (if_pos ?_).trans rfl
  exact Bool.and_eq_true_iff.mpr ⟨decide_eq_true hopen, by rw [List.isEmpty_iff]; exact hpost⟩

/-- Settles O50: the windows' ends are `sendLocate`, `offerRound` and `awardHead`. -/
theorem locateAndBidWindows : Obligations.LocateAndBidWindows := by
  intro s id o hs hp hroom hid ho goes offers
  have same {u : State} (h1 : u.seq = s.seq) (h2 : u.prm = s.prm) : u.settled = true :=
    settled_of_same hs (by rw [h1]) (by rw [h1]) (by rw [h1]) h2
  have offered {i : Instr} {f : State → State} (hi : exec i s = runEvent f s) {g : OriginRec → OriginRec} (hg : KeepsRequest g) {n : Nat}
      (hf : f s = offerRound id n (updOrigin id g s)) (r : OriginRec) (hgo : g o = r) : offers i r n := by
    subst hgo
    have ho1 : (updOrigin id g s).origin id = some (g o) := origin_updOrigin_same hg ho
    have hround := offerRound_eq (s := updOrigin id g s) hroom hid ho1 n
    rw [hround] at hf
    have hkeeps := offeredWith_keeps n s.timers.bidWindow (s.ownBids (g o).write (g o).terms.loc (s.qualifies id (g o).spec (g o).terms.loc))
    refine ⟨_, (hi.trans (runEvent_ends hp hf (same rfl rfl))), ?_, fun x hx => ?_, rfl, rfl, rfl⟩
    · exact (origin_updOrigin_same hkeeps ho1).trans (congrArg some (offeredWith_eq ho1 n _ _ _ _))
    · exact (origin_updOrigin_other hkeeps hx _).trans (origin_updOrigin_other hg hx s)
  have window (hst : o.state = .offered) (hw : o.bidWindow.isSome = true) : bidWindowExpired id s = awardHead 3 id s := by
    simp only [bidWindowExpired, ho, hst, hw, and_self, if_true]
  have ended (hb : o.bids = []) : awardHead 3 id s = endRound id s := by simp only [awardHead, ho, hb]
  refine ⟨fun hst hw => ⟨fun hn => ?locate, fun hn => ?shelf⟩, fun hst hw => ⟨fun b rest hb ha hn => ?award, fun b rest hb ha hn => ?own, fun hb hr => ?second, fun hb hr hopen hpost => ?unserved⟩,
    fun h => ?noLocate, fun h => ?noBid⟩
  case locate =>
    have hf : locateExpired id s = sendLocate id s := by simp only [locateExpired, ho, hst, hw, and_self, if_true, if_pos hn]
    rw [sendLocate_eq hroom ho] at hf
    have hkeeps := (locateEntered_keeps s.timers.locateWindow).comp tried_keeps
    refine ⟨_, runEvent_ends hp hf (same rfl rfl), ?_, fun x hx => origin_updOrigin_other hkeeps hx s, rfl, rfl, rfl⟩
    exact (origin_updOrigin_same hkeeps ho).trans (congrArg some (tried_locateEntered ho hst _))
  case shelf =>
    refine offered (f := locateExpired id) rfl (g := fun o => { o with loc := some .shelf }) (fun _ => ⟨rfl, rfl⟩) ?_ _ rfl
    simp only [locateExpired, ho, hst, hw, and_self, if_true, if_neg (not_lt.mpr hn)]
    rfl
  case award =>
    have hf := (window hst hw).trans (awardHead_other hroom ho hb hn ha 2)
    have hkeeps := awardedTo_keeps b s.timers.awardAnswer
    refine ⟨_, runEvent_ends hp hf (same rfl rfl), ?_, fun x hx => origin_updOrigin_other hkeeps hx s, rfl, rfl, rfl⟩
    exact (origin_updOrigin_same hkeeps ho).trans (congrArg some (awardedTo_eq (origin_spec ho).2 b _))
  case own =>
    exact ⟨_, runEvent_settles hp (window hst hw), awardsItself_settles hs (awardHead_own hroom hid ho hb hn ha 1)⟩
  case second =>
    refine offered (f := bidWindowExpired id) rfl (g := fun o => o) (fun _ => ⟨rfl, rfl⟩) ?_ _ rfl
    have hsame : updOrigin id (fun o => o) s = s := by
      have hl : updWhere (fun o : OriginRec => o.id = id) (fun o => o) s.neg.origins = s.neg.origins := by simp [updWhere]
      rw [updOrigin, hl]
    rw [window hst hw, ended hb, hsame]
    simp only [endRound, ho, hr, if_true]
  case unserved =>
    have hf : bidWindowExpired id s = endUnserved id s := by
      rw [window hst hw, ended hb]
      simp only [endRound, ho, if_neg hr]
    rw [endUnserved_eq ho hopen hpost] at hf
    refine ⟨_, runEvent_settles hp hf, ?_, ?_, ?_, settle_host .., settle_dir .., settle_line .., settle_mnt .., ?_, settle_lane ..,
      settle_wear .., settle_acct .., settle_cells ..⟩
    · have hnone := origin_sweepOrigins (origin_updOrigin_none (g := fun o => { o with promptWaits := false }) (fun _ => ⟨rfl, rfl⟩)
        (origin_closed id (.failed .unserved) s))
      rw [State.origin, settle_neg]
      exact hnone
    · rw [settle_neg]
      rfl
    · rw [settle_prompts]
      rfl
    · refine (settle_seq_kept hs ?_ ?_ ?_ ?_ false).trans ?_ <;> rfl
  case noLocate =>
    refine runEvent_ends (f := locateExpired id) hp ?_ hs
    simp only [locateExpired, ho]
    exact if_neg fun ⟨h1, h2⟩ => h.elim (fun e => e h1) fun e => by rw [e] at h2; cases h2
  case noBid =>
    refine runEvent_ends (f := bidWindowExpired id) hp ?_ hs
    simp only [bidWindowExpired, ho]
    exact if_neg fun ⟨h1, h2⟩ => h.elim (fun e => e h1) fun e => by rw [e] at h2; cases h2

end
end Sys2Proof.Machine


/-! The requests of this station: the frames and timers that move them, and MOUNT that makes them. -/

namespace Sys2Proof.Machine

-- One proof at a time: proofs that wait for each other on threads of their own would reserve more stack than the check allows.
set_option Elab.async false

section
variable {s t : State}

/-! ### LOCATE and HOLDING -/

/-- A request's reel is located: its offer round begins (R52, R53). -/
theorem offerAt_round (h : s.lineRoom = true) {id : ReqId} (hid : id.station = s.addr) {o : OriginRec} (ho : s.origin id = some o)
    (loc : ReelLocation) :
    let own := s.qualifies id o.spec loc
    let u := offerAt id loc s
    u.origin id = some { o with
        state := .offered, loc := some loc, round := 1, awardsMade := 0, locateWindow := none
        bidWindow := some s.timers.bidWindow, bids := s.ownBids o.write loc own }
      ∧ (∀ x, x ≠ id → u.origin x = s.origin x)
      ∧ u = { s.queueing none (.offer id ⟨o.volser, o.write, o.cls, o.account, loc⟩ o.spec) with neg := u.neg }
      ∧ u.neg.notices = s.neg.notices ∧ u.neg.seqCounter = s.neg.seqCounter ∧ u.neg.bids = s.bidsAfter id own := by
  intro own u
  have hg : KeepsRequest fun o : OriginRec => { o with loc := some loc } := fun _ => ⟨rfl, rfl⟩
  have ho1 := origin_updOrigin_same hg ho
  have hround : u = _ := offerRound_eq (s := updOrigin id (fun o => { o with loc := some loc }) s) h hid ho1 1
  have hkeeps := offeredWith_keeps 1 s.timers.bidWindow (s.ownBids o.write loc own)
  rw [hround]
  refine ⟨?_, fun x hx => ?_, rfl, rfl, rfl, rfl⟩
  · exact (origin_updOrigin_same hkeeps ho1).trans (congrArg some (offeredWith_eq ho1 1 _ _ _ _))
  · exact (origin_updOrigin_other hkeeps hx _).trans (origin_updOrigin_other hg hx s)

theorem onHolding_unasked {id : ReqId} {v : Volser} (h : ∀ o, s.origin id = some o → o.state ≠ .locating ∨ o.volser ≠ v)
    (src slot pool : Nat) (ring : Bool) (st : ReelState) : onHolding src id v slot pool ring st s = s := by
  unfold onHolding
  split
  next o ho => exact if_neg fun ⟨h1, h2⟩ => (h o ho).elim (fun e => e h1) fun e => e h2
  next => rfl

theorem closed_failed (k : EndReason) : OriginRec.closed (.failed k) = fun o => { o with
    bids := [], locateWindow := none, bidWindow := none, awardAnswer := none, watch := none
    ended := some (.failed k), noticeWaits := true, promptWaits := decide (k = .unserved) } := by
  funext o
  simp only [OriginRec.closed, Ending.failed.injEq]

theorem closed_served {e : Ending} (h : decide (e = .failed .unserved) = false) : OriginRec.closed e = fun o => { o with
    bids := [], locateWindow := none, bidWindow := none, awardAnswer := none, watch := none
    ended := some e, noticeWaits := true, promptWaits := false } := by
  funext o
  simp only [OriginRec.closed, h]

/-- A HOLDING is learnt for its holder, unless the catalogue has the volser (R15, R16). -/
theorem learn_eq {src : Nat} (h : src ≠ s.addr) (v : Volser) (slot pool : Nat) (ring : Bool) (st : ReelState) :
    learn src v slot pool ring st s = { s with dir := { s.dir with
      learnt := if (s.homeOf v).isSome then s.dir.learnt else tablePut s.dir.learnt ((s.learntOf v).elim s.learnPosition (·.1))
        ⟨v, src, slot, ring, pool, st, s.timers.learntLifetime⟩ } } := by
  unfold learn
  by_cases hv : (s.homeOf v).isSome = true
  · rw [if_pos (by rw [hv]; rfl), if_pos hv]
  · rw [if_neg (by simp [hv, h]), if_neg hv]
    cases s.learntOf v <;> rfl

/-- Settles O36: the answer is `onLocate`, what is learnt `learn`, and what the request does `onHolding`. -/
theorem locateAndHolding : Obligations.LocateAndHolding := by
  refine ⟨fun s f id v hs h => ?_, fun s f id v slot pool ring st hs h hm => ?_, fun s f id v slot pool ring st hs h => ?_⟩
  · intro t
    refine ⟨fun hv => ?_, fun slot e hv hroom => ?_⟩
    · refine exec_overhears_ends h rfl nofun ?_ (settled_of_same hs rfl rfl rfl rfl)
      show onLocate f.src.toNat id v t = t
      rw [onLocate, show t.homeOf v = none from hv]
    · refine exec_overhears_ends h rfl nofun ?_ (settled_of_same hs rfl rfl rfl rfl)
      show onLocate f.src.toNat id v t = _
      rw [onLocate, show t.homeOf v = some (slot, e) from hv]
      exact offerTo_plain (s := t) hroom (by simp [Body.kind]) (by simp [Body.kind])
  · intro t
    simp only [State.overhears, Bool.and_eq_true, beq_iff_eq] at h
    obtain ⟨hh, hb⟩ := h
    obtain ⟨hp, -, -, ha, -⟩ := hears_parts hh
    have hheard : hear .holding f s = learn f.src.toNat v slot pool ring st t := by
      refine (hear_unicast (k := .holding) hh rfl nofun).trans ((if_neg hm).trans ?_)
      exact congrArg (fun b => learnFrom f.src.toNat b t) hb
    rw [learn_eq (s := t) ha] at hheard
    refine ⟨fun hv => ?_, fun hv => ?_⟩
    · rw [if_pos (show (t.homeOf v).isSome = true from hv)] at hheard
      exact runEvent_ends (f := hear .holding f) hp hheard (settled_of_same hs rfl rfl rfl rfl)
    · rw [if_neg (show ¬ (t.homeOf v).isSome = true from by rw [show t.homeOf v = none from hv]; simp)] at hheard
      exact runEvent_ends (f := hear .holding f) hp hheard (settled_of_same hs rfl rfl rfl rfl)
  · intro learnt t
    obtain ⟨-, -, -, ha, -⟩ := hears_parts (hears_of_accepts h)
    have heard {u : State} (hu : onHolding f.src.toNat id v slot pool ring st t = u) (hus : u.settled = true) :
        exec (.holdingReceived f) s = .next u := by
      refine exec_accepts_ends h rfl nofun ?_ hus
      rw [← hu]
      exact congrArg (onHolding f.src.toNat id v slot pool ring st) (learn_eq (s := s.acked f) ha v slot pool ring st)
    refine ⟨fun hn => heard (onHolding_unasked (s := t) hn ..) (settled_of_same hs rfl rfl rfl rfl), fun o ho hst hv => ⟨fun k hk => ?_, fun hhome hid hroom => ?_⟩⟩
    · refine heard ?_ (settled_of_same hs rfl rfl rfl rfl)
      have hend := endRequest_eq (s := t) ho (.failed k)
      rw [closed_failed] at hend
      simp only [onHolding, show t.origin id = some o from ho, hst, hv, and_self, if_true, hk, hend]
    · subst hhome
      have hround := offerAt_round (s := t) hroom hid ho ⟨some f.src.toNat, slot, ring, pool⟩
      have heq : onHolding f.src.toNat id v slot pool ring .home t = offerAt id ⟨some f.src.toNat, slot, ring, pool⟩ t := by
        simp only [onHolding, show t.origin id = some o from ho, hst, hv, and_self, if_true, ReelState.ending]
      obtain ⟨h1, h2, h3, h4, h5, h6⟩ := hround
      refine ⟨_, heard heq ?_, h1, h2, h3, h4, h5, h6⟩
      rw [h3]
      exact settled_of_same hs rfl rfl rfl rfl

/-! ### PROGRESS and RESULT -/

theorem sendRevoke_other (h : s.lineRoom = true) {a : Nat} (ha : a ≠ s.addr) (id : ReqId) :
    sendRevoke a id s = s.queueing (some a) (.revoke id) :=
  (if_neg ha).trans (offerTo_plain h (by simp [Body.kind]) (by simp [Body.kind]))

theorem onProgress_awardee {id : ReqId} {o : OriginRec} {a : Nat} (ho : s.origin id = some o) (ha : o.awardee = some a) :
    onProgress a id s = updOrigin id (fun o => if o.state = .awarded ∨ o.state = .cancelling then
      { o with watch := some s.timers.mountWatch } else o) s := by
  simp only [onProgress, ho, ha, if_true]

theorem onProgress_other {id : ReqId} {a : Nat} (h : ∀ o, s.origin id = some o → o.awardee ≠ some a) :
    onProgress a id s = sendRevoke a id s := by
  unfold onProgress
  split
  next o ho => exact if_neg (h o ho)
  next => rfl

/-- Changing a request that is left as it is changes nothing. -/
theorem updOrigin_unchanged {id : ReqId} {g : OriginRec → OriginRec} (h : ∀ o ∈ s.neg.origins, o.id = id → g o = o) :
    updOrigin id g s = s := by
  have hl : updWhere (fun o : OriginRec => o.id = id) g s.neg.origins = s.neg.origins := by
    refine (List.map_congr_left fun o ho => ?_).trans (List.map_id' _)
    split
    next hid => exact h o ho (of_decide_eq_true hid)
    next => rfl
  rw [updOrigin, hl]

theorem onResult_ignored {id : ReqId} {a : Nat} (h : ∀ o, s.origin id = some o → o.awardee ≠ some a ∨ o.state = .awarding)
    (k : ResultKind) (g : Nat) : onResult a id k g s = s := by
  unfold onResult
  split
  next o ho =>
    obtain h | h := h o ho
    · exact if_neg h
    · simp only [h, ite_self]
  next => rfl

/-- The ending a RESULT gives is never UNSERVED, so no prompt is posted for it (R61). -/
theorem resultEnding_served (k : ResultKind) (g : Nat) : decide (resultEnding k g = .failed .unserved) = false := by
  cases k <;> rfl

theorem resultEndingCancelling_served (k : ResultKind) (g : Nat) : decide (resultEndingCancelling k g = .failed .unserved) = false := by
  cases k <;> rfl

/-- A request sent back to LOCATING (R65). -/
def OriginRec.staled (o : OriginRec) : OriginRec := { o with staleRetries := 1, awardee := none, watch := none, loc := none }

theorem staled_keeps : KeepsRequest OriginRec.staled := fun _ => ⟨rfl, rfl⟩

/-- A request as location of its reel begins (R51). -/
def OriginRec.relocated (o : OriginRec) : OriginRec := { o with state := .locating, locateAttempts := 0 }

theorem relocated_keeps : KeepsRequest OriginRec.relocated := fun _ => ⟨rfl, rfl⟩

/-- A request's reel is located by a LOCATE (R51). -/
theorem startLocating_eq (h : s.lineRoom = true) {id : ReqId} {o : OriginRec} (ho : s.origin id = some o) :
    startLocating id s = (updOrigin id (fun o => o.relocated.tried.locateEntered s.timers.locateWindow) s).queueing none
      (.locate id o.volser) := by
  have hsend := sendLocate_eq (s := updOrigin id OriginRec.relocated s) h (origin_updOrigin_same relocated_keeps ho)
  rw [updOrigin_updOrigin relocated_keeps] at hsend
  exact hsend

/-- The first FAILED STALE has the request's reel located again (R65). -/
theorem staleRetry_eq (h : s.lineRoom = true) {id : ReqId} {o : OriginRec} (ho : s.origin id = some o) :
    staleRetry id s = (updOrigin id (fun o => o.staled.relocated.tried.locateEntered s.timers.locateWindow)
      (forgetVolser o.volser s)).queueing none (.locate id o.volser) := by
  have hstart := startLocating_eq (s := updOrigin id OriginRec.staled (forgetVolser o.volser s)) h (origin_updOrigin_same staled_keeps ho)
  rw [updOrigin_updOrigin staled_keeps] at hstart
  rw [staleRetry, ho]
  exact hstart

theorem forgetVolser_eq (v : Volser) (s : State) : forgetVolser v s
    = { s with dir := { s.dir with learnt := s.dir.learnt.filter fun e => e.2.volser ≠ v } } := by
  simp only [forgetVolser, forgetWhere, ne_eq, decide_not]

/-- A RESULT that ends an AWARDED request (R65). -/
theorem onResult_awarded {id : ReqId} {o : OriginRec} {a : Nat} (ho : s.origin id = some o) (ha : o.awardee = some a)
    (hst : o.state = .awarded) (k : ResultKind) (g : Nat) : onResult a id k g s
      = if k = .failed .stale ∧ o.staleRetries = 0 then staleRetry id s else endRequest id (resultEnding k g) s := by
  simp only [onResult, ho, ha, hst, if_true]

/-- A RESULT that ends a CANCELLING request (R71). -/
theorem onResult_cancelling {id : ReqId} {o : OriginRec} {a : Nat} (ho : s.origin id = some o) (ha : o.awardee = some a)
    (hst : o.state = .cancelling) (k : ResultKind) (g : Nat) : onResult a id k g s
      = endRequest id (resultEndingCancelling k g) (if k = .failed .stale ∧ o.staleRetries = 0 then forgetVolser o.volser s else s) := by
  simp only [onResult, ho, ha, hst, if_true]

/-- Settles O43: the rows are `onProgress` and `onResult` on the acknowledged state. -/
theorem progressAndResult : Obligations.ProgressAndResult := by
  refine ⟨fun s f id hs h => ?_, fun s f id k g hs h => ?_⟩
  · obtain ⟨-, -, -, hsrc, -⟩ := hears_parts (hears_of_accepts h)
    have heard {u : State} (hu : onProgress f.src.toNat id (s.acked f) = u) (hus : u.settled = true) :
        exec (.progressReceived f) s = .next u := exec_accepts_ends h rfl nofun hu hus
    refine ⟨fun o ho ha hst => ?_, fun o ho ha hst hu => ?_, fun hroom hn => ?_⟩
    · exact heard (onProgress_awardee (s := s.acked f) ho ha) (settled_of_same hs rfl rfl rfl rfl)
    · refine heard ((onProgress_awardee (s := s.acked f) ho ha).trans (updOrigin_unchanged fun x hx hid => ?_)) (settled_of_same hs rfl rfl rfl rfl)
      rw [hu x hx hid]
      simp only [hst, reduceCtorEq, or_self, if_false]
    · exact heard ((onProgress_other (s := s.acked f) hn).trans (sendRevoke_other (s := s.acked f) hroom hsrc id))
        (settled_of_same hs rfl rfl rfl rfl)
  · have heard {u : State} (hu : onResult f.src.toNat id k g (s.acked f) = u) (hus : u.settled = true) :
        exec (.resultReceived f) s = .next u := exec_accepts_ends h rfl nofun hu hus
    refine ⟨fun hn => ?ignored, fun o ho ha hst => ?cancelling, fun o ho ha hst => ?awarded⟩
    case ignored => exact heard (onResult_ignored (s := s.acked f) hn k g) (settled_of_same hs rfl rfl rfl rfl)
    case cancelling =>
      intro ending
      have he : resultEndingCancelling k g = ending := by cases k <;> rfl
      refine heard ((onResult_cancelling (s := s.acked f) ho ha hst k g).trans ?_) (settled_of_same hs rfl rfl rfl rfl)
      have hserved := resultEndingCancelling_served k g
      rw [he] at hserved ⊢
      split
      next hk =>
        rw [endRequest_eq (s := forgetVolser o.volser (s.acked f)) ho, forgetVolser_eq, closed_served hserved]
        rfl
      next hk =>
        rw [endRequest_eq (s := s.acked f) ho, closed_served hserved]
        rfl
    case awarded =>
      intro ending
      have he : resultEnding k g = ending := by cases k <;> rfl
      have hserved := resultEnding_served k g
      rw [he] at hserved
      have heq := onResult_awarded (s := s.acked f) ho ha hst k g
      refine ⟨fun hn => ?_, fun hk h0 hroom => ?_⟩
      · refine heard (heq.trans ((if_neg fun ⟨h1, h2⟩ => hn.elim (fun e => e h1) fun e => e h2).trans ?_)) (settled_of_same hs rfl rfl rfl rfl)
        rw [he, endRequest_eq (s := s.acked f) ho, closed_served hserved]
      · rw [if_pos ⟨hk, h0⟩, staleRetry_eq (s := s.acked f) hroom ho] at heq
        have hkeeps := (locateEntered_keeps s.timers.locateWindow).comp (tried_keeps.comp (relocated_keeps.comp staled_keeps))
        refine ⟨_, heard heq (settled_of_same hs rfl rfl rfl rfl), ?_, ?_, rfl, rfl, rfl, rfl, rfl, rfl, rfl, rfl, rfl⟩
        · refine (origin_updOrigin_same hkeeps ho).trans (congrArg some ?_)
          exact if_pos ⟨by rw [show o.staled.relocated.tried.ended = o.ended from rfl, (origin_spec ho).2]; rfl, rfl⟩
        · rw [forgetVolser_eq]
          rfl

/-! ### The timers of a request, ACCEPT and DECLINE -/

/-- Settles O51: the award answer's end is `moveOn`, and the mount watch's `endRequest`. -/
theorem awardTimers : Obligations.AwardTimers := by
  refine ⟨fun s id hs hp => ?_, fun s id o hs hp ho => ?_⟩
  · exact runEvent_ends (f := dropBid id) hp (dropBid_eq id s) (settled_of_same hs rfl rfl rfl rfl)
  · have answer (h1 : o.state = .awarding) (h2 : o.awardAnswer.isSome = true) : awardAnswerExpired id s = moveOn id s := by
      simp only [awardAnswerExpired, ho, h1, h2, and_self, if_true]
    refine ⟨fun b c rest hst hw hb hn hc hroom => ?_, fun b c rest hst hw hb hn hc hid hroom => ?_, fun h => ?_, fun hst hw => ?_, fun hw => ?_⟩
    · obtain ⟨h1, h2, h3, h4⟩ := moveOn_other hroom ho hst hb hn hc
      refine ⟨_, runEvent_ends hp (answer hst hw) ?_, h1, h2, h3, h4⟩
      rw [h3]
      exact settled_of_same hs rfl rfl rfl rfl
    · exact ⟨_, runEvent_settles hp (answer hst hw), awardsItself_settles hs (moveOn_own hroom hid ho hb hn hc)⟩
    · refine runEvent_ends (f := awardAnswerExpired id) hp ?_ hs
      simp only [awardAnswerExpired, ho]
      exact if_neg fun ⟨h1, h2⟩ => h.elim (fun e => e h1) fun e => by rw [e] at h2; cases h2
    · refine runEvent_ends (f := mountWatchExpired id) hp ?_ (settled_of_same hs rfl rfl rfl rfl)
      simp only [mountWatchExpired, ho, hst, hw, and_self, if_true, endRequest_eq ho, closed_failed]
      rfl
    · refine runEvent_ends (f := mountWatchExpired id) hp ?_ hs
      simp only [mountWatchExpired, ho]
      exact if_neg fun h => hw h.2

/-- Settles O41: the rows are `takeAccept` and `moveOn` on the acknowledged state. -/
theorem acceptAndDecline : Obligations.AcceptAndDecline := by
  refine ⟨fun s f id d hs h => ?_, fun s f id r hs h => ?_⟩
  · obtain ⟨-, -, -, hsrc, -⟩ := hears_parts (hears_of_accepts h)
    have heard {u : State} (hu : onAccept f.src.toNat id (s.acked f) = u) (hus : u.settled = true) :
        exec (.acceptReceived f) s = .next u := exec_accepts_ends h rfl nofun hu hus
    refine ⟨fun o ho hst ha => ?_, fun hroom hn => ?_⟩
    · exact heard (takeAccept_awardee (s := s.acked f) ho hst ha _) (settled_of_same hs rfl rfl rfl rfl)
    · exact heard ((takeAccept_late (s := s.acked f) hn _).trans (sendRevoke_other (s := s.acked f) hroom hsrc id))
        (settled_of_same hs rfl rfl rfl rfl)
  · have moved {o : OriginRec} (ho : s.origin id = some o) (hst : o.state = .awarding) (ha : o.awardee = some f.src.toNat) :
        onDecline f.src.toNat id (s.acked f) = moveOn id (s.acked f) := by
      simp only [onDecline, acked_origin, ho, hst, ha, and_self, if_true]
    refine ⟨fun hn => ?_, fun o b c rest ho hst ha hb hn hc hid hroom => ?_, fun o b c rest ho hst ha hb hn hc hroom => ?_⟩
    · refine exec_accepts_ends h rfl nofun ?_ (settled_of_same hs rfl rfl rfl rfl)
      show onDecline f.src.toNat id (s.acked f) = _
      unfold onDecline
      split
      next o ho => exact if_neg fun ⟨h1, h2⟩ => (hn o ho).elim (fun e => e h1) fun e => e h2
      next => rfl
    · refine ⟨_, exec_accepts h rfl nofun (moved ho hst ha), ?_⟩
      exact awardsItself_settles (s := s.acked f) (settled_of_same hs rfl rfl rfl rfl) (moveOn_own (s := s.acked f) hroom hid ho hb hn hc)
    · obtain ⟨h1, h2, h3, h4⟩ := moveOn_other (s := s.acked f) hroom ho hst hb hn hc
      refine ⟨_, exec_accepts_ends h rfl nofun (moved ho hst ha) ?_, h1, h2, h3, h4⟩
      rw [h3]
      exact settled_of_same hs rfl rfl rfl rfl

end
end Sys2Proof.Machine


/-! MOUNT, and CANCEL by the state of its request; a record of this station that turns back before its reel is set moving. -/

namespace Sys2Proof.Machine

-- One proof at a time: proofs that wait for each other on threads of their own would reserve more stack than the check allows.
set_option Elab.async false

section
variable {s t : State}

/-! ### MOUNT -/

/-- The last request of the table is found by its id, when no other has it. -/
theorem origin_last {l : List OriginRec} {r : OriginRec} (hl : ∀ o ∈ l, o.id ≠ r.id) (he : r.ended = none)
    (h : s.neg.origins = l ++ [r]) : s.origin r.id = some r := by
  have hnone : l.find? (fun o => decide (o.id = r.id) && o.ended.isNone) = none :=
    List.find?_eq_none.mpr fun o ho => by simp [hl o ho]
  rw [State.origin, h, List.find?_append, hnone, Option.none_or]
  simp [he]

/-- The state with a new request, its id the next free one (R47). -/
def State.asked (s : State) (tag : Byte) (r : OriginRec) : State :=
  { s.answered tag (.started r.id) with neg := { s.neg with
      origins := s.neg.origins ++ [r], seqCounter := (s.nextRequest + 1) % 256 } }

theorem nextRequest_fresh (h : s.neg.origins.length < 16) {o : OriginRec} (ho : o ∈ s.neg.origins) :
    o.id ≠ ⟨s.addr, s.nextRequest⟩ := by
  intro hid
  have hmem : s.nextRequest ∈ s.neg.origins.map fun o => o.id.seq := List.mem_map.mpr ⟨o, ho, by rw [hid]⟩
  exact freshNumber_not_mem _ (by rw [List.length_map]; omega) hmem

/-- A request's table entry, when it stands last and no other has its id, is changed alone by what changes the request. -/
theorem asked_updOrigin {tag : Byte} {r : OriginRec} (h : ∀ o ∈ s.neg.origins, o.id ≠ r.id) (g : OriginRec → OriginRec) (hg : (g r).id = r.id) :
    updOrigin r.id g (s.asked tag r) = s.asked tag (g r) := by
  rw [updOrigin_last h rfl g, State.asked, State.asked, hg]

theorem asked_origin {tag : Byte} {r : OriginRec} (h : ∀ o ∈ s.neg.origins, o.id ≠ r.id) (he : r.ended = none) :
    (s.asked tag r).origin r.id = some r := origin_last h he rfl

/-- Settles O21: `startRequest`, its lookup by where the reel is. -/
theorem mountStarts : Obligations.MountStarts := by
  intro s tag v1 v2 v3 v4 v5 v6 form n w c acc spec write hs h hroom hst hspec hw hc v hv cmd id r made
  have takes {u : State} (hu : startRequest tag v spec write c.toNat acc.toNat s.opened = u) (hus : u.settled = true) : exec cmd s = .next u := by
    refine hostRow_runs (code := 7) (p := [v1, v2, v3, v4, v5, v6, form, n, w, c, acc]) h rfl rfl rfl (by obtain e | e := hst <;> rw [e] <;> rfl) ?_ hus
    show cmdMount tag [v1, v2, v3, v4, v5, v6, form, n, w, c, acc] s.opened = u
    simp only [cmdMount, hspec, hw, show (volserOf v1 v2 v3 v4 v5 v6).wellFormed = true from hv, hc, decide_true, Bool.and_self, if_true]
    exact hu
  refine ⟨fun hdup => ?_, fun hdup hfull => ?_, fun hdup hplace => ?_⟩
  · exact takes (if_pos hdup) (settled_of_same hs rfl rfl rfl rfl)
  · refine takes ((if_neg ?_).trans (if_pos hfull)) (settled_of_same hs rfl rfl rfl rfl)
    exact Bool.not_eq_true _ ▸ hdup
  · have hfresh : ∀ o ∈ s.opened.neg.origins, o.id ≠ r.id := fun o ho => nextRequest_fresh hplace ho
    have hstart : startRequest tag v spec write c.toNat acc.toNat s.opened = lookupNew id v (s.opened.asked tag r) :=
      (if_neg (Bool.not_eq_true _ ▸ hdup)).trans (if_neg (not_le.mpr hplace))
    have horigin : (s.opened.asked tag r).origin id = some r := asked_origin hfresh rfl
    refine ⟨fun hl => ?_, fun loc hl => ?_, fun slot e k hl hk => ?_⟩
    · refine takes (hstart.trans ?_) (settled_of_same hs rfl rfl rfl rfl)
      have hlocate : lookupNew id v (s.opened.asked tag r) = startLocating id (s.opened.asked tag r) := by
        obtain hl | ⟨e, hl, he⟩ := hl
        · simp only [lookupNew, show (s.opened.asked tag r).lookup v = _ from hl]
        · simp only [lookupNew, show (s.opened.asked tag r).lookup v = _ from hl, if_neg he]
      rw [hlocate, startLocating_eq (s := s.opened.asked tag r) hroom horigin]
      exact congrArg (State.queueing none _) (asked_updOrigin (tag := tag) hfresh _ rfl)
    · generalize hown : s.qualifies id spec loc = w
      intro own t
      refine takes (hstart.trans ?_) (settled_of_same hs rfl rfl rfl rfl)
      have hoffer : lookupNew id v (s.opened.asked tag r) = offerAt id loc (s.opened.asked tag r) := by
        obtain ⟨slot, e, hl, he, rfl⟩ | ⟨e, hl, he, rfl⟩ := hl
        · simp only [lookupNew, show (s.opened.asked tag r).lookup v = _ from hl, he, ReelState.ending]
          rfl
        · simp only [lookupNew, show (s.opened.asked tag r).lookup v = _ from hl, he, if_true]
      have hlocated : updOrigin id (fun o => { o with loc := some loc }) (s.opened.asked tag r) = s.opened.asked tag { r with loc := some loc } :=
        asked_updOrigin (tag := tag) hfresh _ rfl
      have horigin2 : (s.opened.asked tag { r with loc := some loc }).origin id = some { r with loc := some loc } := asked_origin hfresh rfl
      have hround : offerRound id 1 (s.opened.asked tag { r with loc := some loc })
          = ((updOrigin id (OriginRec.offeredWith 1 s.timers.bidWindow (s.ownBids write loc w)) (s.opened.asked tag { r with loc := some loc })).withBids
            (s.bidsAfter id w)).queueing none (.offer id ⟨v, write, c.toNat, acc.toNat, loc⟩ spec) := by
        rw [← hown]
        exact offerRound_eq (s := s.opened.asked tag { r with loc := some loc }) hroom rfl horigin2 1
      have hentry := (asked_updOrigin (tag := tag) (r := { r with loc := some loc }) hfresh
        (OriginRec.offeredWith 1 s.timers.bidWindow (s.ownBids write loc w)) (offeredWith_keeps 1 _ _ _).1).trans
        (congrArg (s.opened.asked tag) (offeredWith_eq horigin2 1 s.timers.bidWindow write loc w))
      rw [hoffer, offerAt, hlocated, hround]
      refine (congrArg (fun x : State => (x.withBids (s.bidsAfter id w)).queueing none (.offer id ⟨v, write, c.toNat, acc.toNat, loc⟩ spec)) hentry).trans ?_
      cases w <;> rfl
    · refine takes (hstart.trans ?_) (settled_of_same hs rfl rfl rfl rfl)
      simp only [lookupNew, show (s.opened.asked tag r).lookup v = _ from hl, hk, endRequest_eq horigin, closed_failed]
      exact congrArg (postNeg _) (asked_updOrigin (tag := tag) hfresh _ rfl)

/-! ### A mount record that turns back -/

theorem updMount_updMount {f g : MountRec → MountRec} (hf : ∀ m, (f m).id = m.id) (id : ReqId) (s : State) :
    updMount id g (updMount id f s) = updMount id (fun m => g (f m)) s := by
  have hl : updWhere (fun m : MountRec => m.id = id) g (updWhere (fun m => m.id = id) f s.mnt.mounts)
      = updWhere (fun m => m.id = id) (fun m => g (f m)) s.mnt.mounts := by
    simp only [updWhere, List.map_map]
    refine List.map_congr_left fun m _ => ?_
    simp only [Function.comp_apply, decide_eq_true_eq]
    by_cases h : m.id = id
    · rw [if_pos h, if_pos h, if_pos ((hf m).trans h)]
    · rw [if_neg h, if_neg h, if_neg h]
  simp only [updMount, hl]

/-- A record that turns back (R105). -/
def MountRec.turned (m : MountRec) : MountRec := { m with turningBack := true }

/-- A record without its drive (R105). -/
def MountRec.undriven (m : MountRec) : MountRec := { m with driveHeld := false }

/-- A record whose RESULT CANCELLED has gone (R70). -/
def MountRec.cancelled (m : MountRec) : MountRec := { m with cancelPending := true, resultSent := .cancelled }

theorem turned_id (m : MountRec) : m.turned.id = m.id := rfl

theorem undriven_id (m : MountRec) : m.undriven.id = m.id := rfl

theorem cancelled_id (m : MountRec) : m.cancelled.id = m.id := rfl

/-- A record gives up its drive (R105). -/
theorem releaseDrive_held {id : ReqId} {m : MountRec} (hm : s.mount id = some m) (hd : m.driveHeld = true) :
    releaseDrive id s = updDrive m.drive DriveRec.released (updMount id MountRec.undriven s) := by
  simp only [releaseDrive, hm, hd, if_true]
  rfl

theorem releaseDrive_unheld {id : ReqId} (h : ∀ m, s.mount id = some m → m.driveHeld = false) : releaseDrive id s = s := by
  unfold releaseDrive
  split
  next m hm => rw [h m hm]; rfl
  next => rfl

theorem answerHeld_false {id : ReqId} (h : ∀ p ∈ s.prm.prompts, p.mountId = some id → p.answer = .none) : s.answerHeld id = false := by
  rw [State.answerHeld, List.any_eq_false]
  intro p hp hh
  simp only [Bool.and_eq_true, decide_eq_true_eq, bne_iff_ne, ne_eq] at hh
  exact hh.2 (h p hp hh.1)

/-- A record that waits for its reel from another station turns back: it gives up its drive (R105). -/
theorem turnBack_remote {id : ReqId} {m : MountRec} (hm : s.mount id = some m) (ht : m.turningBack = false) (hst : m.stage = .sourcing)
    (ha : s.answerHeld id = false) {a : Nat} (hh : m.home = some a) (hne : a ≠ s.addr) (hd : m.driveHeld = true) :
    turnBack id s = updDrive m.drive DriveRec.released (updMount id (fun m => m.turned.undriven) s) := by
  have hm2 : (updMount id MountRec.turned s).mount id = some m.turned := mount_updMount_same turned_id hm
  have hrelease := releaseDrive_held hm2 hd
  rw [updMount_updMount turned_id] at hrelease
  simp only [turnBack, hm, ht, Bool.false_eq_true, if_false, hst, ha, hh, if_neg hne]
  exact hrelease

/-- A CANCEL for a record that has been MOUNTED is too late (R70). -/
theorem onCancel_late {id : ReqId} {m : MountRec} {a : Nat} (hm : s.mount id = some m) (ho : m.originator = a) (hr : m.resultSent ≠ .failed)
    (hre : m.reachedMounted = true) (hf : m.failure ≠ some .revoked) : onCancel a id s = sendResult a id .tooLate (s.globalDrive m.drive) s := by
  have h1 : ¬ (m.originator ≠ a ∨ m.resultSent = .failed) := fun h => h.elim (fun e => e ho) hr
  simp only [onCancel, hm, if_neg h1, hre, if_true, if_neg hf]

/-- The first CANCEL for a record that has not been MOUNTED and has told nothing (R70). -/
theorem onCancel_first {id : ReqId} {m : MountRec} {a : Nat} (hm : s.mount id = some m) (ho : m.originator = a) (hr : m.resultSent = .none)
    (hre : m.reachedMounted = false) (hc : m.cancelPending = false) (hf : m.failure = none) :
    onCancel a id s = turnBack id (sendResult a id .cancelled 0 (updMount id MountRec.cancelled s)) := by
  have h1 : ¬ (m.originator ≠ a ∨ m.resultSent = .failed) := fun h => h.elim (fun e => e ho) fun e => by rw [hr] at e; cases e
  have h2 : m.resultSent = .none ∧ m.failure ≠ some .revoked := ⟨hr, by rw [hf]; nofun⟩
  have hboth := updMount_updMount (f := fun m => { m with cancelPending := true }) (g := fun m => { m with resultSent := .cancelled })
    (fun _ => rfl) id s
  simp only [onCancel, hm, if_neg h1, hre, Bool.false_eq_true, if_false, hc, if_pos h2, hboth]
  rfl

/-- The first CANCEL for a record that waits for its reel from another station, its RESULT taken or queued (R70, R105). -/
theorem onCancel_remote {id : ReqId} {m : MountRec} {a h : Nat} (hm : s.mount id = some m) (ho : m.originator = a)
    (hr : m.resultSent = .none) (hre : m.reachedMounted = false) (hc : m.cancelPending = false) (hf : m.failure = none)
    (hst : m.stage = .sourcing) (ht : m.turningBack = false) (hd : m.driveHeld = true)
    (ha : ∀ p ∈ s.prm.prompts, p.mountId = some id → p.answer = .none) (hh : m.home = some h) (hne : h ≠ s.addr)
    (hsend : sendResult a id .cancelled 0 (updMount id MountRec.cancelled s) = t) (hm2 : t.mnt = (updMount id MountRec.cancelled s).mnt)
    (hprm : t.prm = s.prm) (haddr : t.addr = s.addr) :
    onCancel a id s = { t with mnt := { s.mnt with
      drives := s.mnt.drives.modify m.drive DriveRec.released
      mounts := updWhere (fun x => x.id = id) (fun m => { m with
        cancelPending := true, resultSent := .cancelled, turningBack := true, driveHeld := false }) s.mnt.mounts } } := by
  have hmt : t.mount id = some m.cancelled := by
    rw [show t.mount id = (updMount id MountRec.cancelled s).mount id by rw [State.mount, hm2]; rfl]
    exact mount_updMount_same cancelled_id hm
  rw [onCancel_first hm ho hr hre hc hf, hsend,
    turnBack_remote hmt ht hst (answerHeld_false (by rw [hprm]; exact ha)) hh (by rw [haddr]; exact hne) hd]
  have hboth := congrArg (·.mnt.mounts) (updMount_updMount (f := MountRec.cancelled) (g := fun m => m.turned.undriven) (fun _ => rfl) id s)
  simp only [updDrive, updMount, hm2]
  simp only [updMount] at hboth
  rw [hboth]
  rfl

/-! ### CANCEL -/

/-- Settles O22: `cmdCancel`, by the request's state. -/
theorem cancelByState : Obligations.CancelByState := by
  intro s tag a b hs h hroom id endedAs ended
  have takes {u : State} (hu : cmdCancel tag id s.opened = u) (hus : u.settled = true) : exec (.cancel tag [a, b]) s = .next u := by
    refine hostRow_runs (code := 8) (p := [a, b]) h rfl rfl rfl ?_ hu hus
    cases s.host.state <;> rfl
  have hend {t : State} {o : OriginRec} (ho : t.origin id = some o) {e : Ending} (he : decide (e = .failed .unserved) = false) :
      endRequest id e t = endedAs e o t := by rw [endRequest_eq ho, closed_served he]
  refine ⟨fun hn => ?none, fun o ho => ⟨fun hst => ?early, fun x hst hx hne => ?awarding, fun x hst hx hne => ?awarded,
    fun m hst hx hm horig hres => ?own, fun hst => ?cancelling⟩⟩
  case none =>
    refine takes ?_ (settled_of_same hs rfl rfl rfl rfl)
    simp only [cmdCancel, show s.opened.origin id = none from hn]
    rfl
  case early =>
    refine takes ?_ (settled_of_same hs rfl rfl rfl rfl)
    have heq : cmdCancel tag id s.opened = answer tag .cancelTaken (endRequest id .cancelled s.opened) := by
      obtain hst | hst := hst <;> simp only [cmdCancel, show s.opened.origin id = some o from ho, hst]
    rw [heq, hend (t := s.opened) ho rfl]
    rfl
  case awarding =>
    refine takes ?_ (settled_of_same hs rfl rfl rfl rfl)
    have heq : cmdCancel tag id s.opened = sendRevoke x id (answer tag .cancelTaken (endRequest id .cancelled s.opened)) := by
      simp only [cmdCancel, show s.opened.origin id = some o from ho, hst, hx]
    rw [heq, hend (t := s.opened) ho rfl]
    exact sendRevoke_other (s := (ended o s.opened).answered tag .cancelTaken) hroom hne id
  case awarded =>
    refine takes ?_ (settled_of_same hs rfl rfl rfl rfl)
    simp only [cmdCancel, show s.opened.origin id = some o from ho, hst, hx, sendCancel]
    refine (if_neg hne).trans ?_
    exact offerTo_plain (s := (updOrigin id (fun o => { o with state := .cancelling }) s.opened).answered tag .cancelTaken)
      (b := .cancel id) hroom (by simp [Body.kind]) (by simp [Body.kind])
  case own =>
    intro asked
    have hao : (asked.answered tag .cancelTaken).origin id = some { o with state := .cancelling } :=
      origin_updOrigin_same (s := s) (g := fun o => { o with state := .cancelling }) (fun _ => ⟨rfl, rfl⟩) ho
    have heq : cmdCancel tag id s.opened = onCancel s.addr id (asked.answered tag .cancelTaken) := by
      simp only [cmdCancel, show s.opened.origin id = some o from ho, hst, hx, sendCancel]
      exact if_pos rfl
    have hresult {t : State} (haddr : t.addr = s.addr) (ht : t.origin id = some { o with state := .cancelling }) {k : ResultKind}
        (hk : k ≠ .failed .stale) (g : Nat) : sendResult s.addr id k g t = endRequest id (resultEndingCancelling k g) t := by
      refine (if_pos haddr.symm).trans ?_
      rw [haddr, onResult_cancelling ht hx rfl, if_neg fun e => hk e.1]
    refine ⟨fun hre hf => takes ?_ (settled_of_same hs rfl rfl rfl rfl), fun b hre hc hr hf hstage ht hd hp hh hne => takes ?_ (settled_of_same hs rfl rfl rfl rfl)⟩
    · rw [heq, onCancel_late (s := asked.answered tag .cancelTaken) hm horig hres hre hf,
        hresult (t := asked.answered tag .cancelTaken) rfl hao (by simp),
        hend hao (resultEndingCancelling_served _ _)]
      rfl
    · have hsend := hresult (t := updMount id MountRec.cancelled (asked.answered tag .cancelTaken)) rfl hao (k := .cancelled) (by simp) 0
      rw [hend (t := updMount id MountRec.cancelled (asked.answered tag .cancelTaken)) hao (resultEndingCancelling_served _ _)] at hsend
      rw [heq, onCancel_remote (s := asked.answered tag .cancelTaken) hm horig hr hre hc hf hstage ht hd hp hh hne hsend rfl rfl rfl]
      rfl
  case cancelling =>
    refine takes ?_ (settled_of_same hs rfl rfl rfl rfl)
    simp only [cmdCancel, show s.opened.origin id = some o from ho, hst]
    rfl

end
end Sys2Proof.Machine


/-! The closure of a mount: its charge, its accounting record and its account; what a record's closure leaves of its sourcing. -/

namespace Sys2Proof.Machine

-- One proof at a time: proofs that wait for each other on threads of their own would reserve more stack than the check allows.
set_option Elab.async false

section
variable {s t : State}

/-! ### The accounting record of a closure -/

theorem account_evalSpool (s : State) (n : Nat) : (evalSpool s).account n = s.account n := by
  rw [evalSpool_next]
  rfl

theorem accountFor_acct (m : MountRec) (s : State) : accountFor m s = { s with acct := (accountFor m s).acct } := by
  rw [accountFor, evalSpool_eq]
  rfl

/-- A closure spools one accounting record with the next station sequence (R187). -/
theorem accountFor_spool (m : MountRec) (s : State) :
    (accountFor m s).acct.spool = s.acct.spool ++ [accountRecord s.acct.counter (s.globalDrive m.drive) s.settings m]
      ∧ (accountFor m s).acct.counter = (s.acct.counter + 1) % 65536 := by
  rw [accountFor, evalSpool_next]
  exact ⟨rfl, rfl⟩

theorem accountFor_account (m : MountRec) (s : State) :
    (accountFor m s).account m.account = (s.account m.account).closed m.outcome (min (exactCharge s.settings m) Config.topCharge) m.operatorActions
      ∧ ∀ n, n ≠ m.account → (accountFor m s).account n = s.account n := by
  have hacc (n : Nat) : (accountFor m s).account n = (updAccount m.account (fun a =>
      a.closed m.outcome (min (exactCharge s.settings m) Config.topCharge) m.operatorActions) s).account n := by
    rw [accountFor, account_evalSpool]
    rfl
  refine ⟨?_, fun n hn => ?_⟩
  · rw [hacc]
    exact account_updAccount_same ..
  · rw [hacc]
    exact account_updAccount_other _ _ hn

theorem outcome_dismounted {m : MountRec} (h1 : m.reachedMounted = true) (h2 : m.cancelPending = false) : m.outcome = .dismounted := by
  rw [MountRec.outcome, h1, h2]
  rfl

/-- The outcome of a mount that was not dismounted is by its failure (R110). -/
theorem outcome_lost {m : MountRec} (h : ¬ (m.reachedMounted = true ∧ m.cancelPending = false)) :
    m.outcome = if m.failure = none then .cancelled else .failed := by
  have hg : (m.reachedMounted && !m.cancelPending) = false := by
    rw [Bool.eq_false_iff]
    intro hb
    rw [Bool.and_eq_true, Bool.not_eq_true'] at hb
    exact h hb
  rw [MountRec.outcome, hg]
  cases m.failure <;> rfl

/-- The hold time's term is rounded up (R181). -/
theorem timeTerm_ceil (h r : Nat) : h * r ≤ 60 * timeTerm h r ∧ 60 * timeTerm h r < h * r + 60 := by
  unfold timeTerm
  omega

/-- Settles O60: the closure is `accountFor`, and the charge `exactCharge` by the outcome. -/
theorem closureCharges : Obligations.ClosureCharges := by
  intro s m extra
  obtain ⟨hspool, hcounter⟩ := accountFor_spool m s
  obtain ⟨hsame, hother⟩ := accountFor_account m s
  have hextra : surcharges s.settings m.hops m.manual (m.ring = .inserted) = extra := by
    simp only [surcharges, extra, decide_eq_true_eq]
  refine ⟨_, exactCharge s.settings m, hspool, rfl, hcounter, rfl, decide_eq_true_iff, ⟨rfl, rfl, rfl, rfl, rfl, rfl, rfl, rfl, rfl, rfl⟩,
    fun h1 h2 => ⟨outcome_dismounted h1 h2, fun r u hr hu => ?_⟩, fun h hf => ?_, fun h hf => ?_, hsame, hother⟩
  · refine ⟨timeTerm (u - r) (s.settings.rate m.cls).time, ?_, timeTerm_ceil ..⟩
    simp only [exactCharge, outcome_dismounted h1 h2, hr, hu, holdSeconds, hextra]
  · have ho : m.outcome = .cancelled := (outcome_lost h).trans (if_pos hf)
    exact ⟨ho, by simp only [exactCharge, ho, hextra]⟩
  · have ho : m.outcome = .failed := (outcome_lost h).trans (if_neg hf)
    exact ⟨ho, by simp only [exactCharge, ho]⟩

/-! ### Prompts that end -/

theorem grantCell_frame (i : Nat) (w : Holder) (s : State) :
    grantCell i w s = { s with seq := (grantCell i w s).seq, prm := (grantCell i w s).prm } := by cases w <;> rfl

theorem freeCell_frame (i : Nat) (s : State) : freeCell i s = { s with seq := (freeCell i s).seq, prm := (freeCell i s).prm } := by
  unfold freeCell
  split
  · rfl
  · rw [grantCell_frame]

/-- A prompt's end touches the line, the prompts and the orders that waited for its position (R153, R154, R168). -/
theorem endPrompt_frame (n : Nat) (s : State) : endPrompt n s
    = { s with line := (endPrompt n s).line, seq := (endPrompt n s).seq, prm := (endPrompt n s).prm } := by
  unfold endPrompt
  split
  · rw [clearEscalated_eq]
    dsimp only
    split
    · rw [freeCell_frame]
      rfl
    · rfl
  · rfl

theorem withdrawFetch_frame (id : ReqId) (s : State) : withdrawFetch id s
    = { s with line := (withdrawFetch id s).line, seq := (withdrawFetch id s).seq, prm := (withdrawFetch id s).prm } := by
  unfold withdrawFetch
  dsimp only
  split
  · split
    · rw [endPrompt_frame]
    · rfl
  · rfl

theorem withdrawRing_frame (id : ReqId) (s : State) : withdrawRing id s
    = { s with line := (withdrawRing id s).line, seq := (withdrawRing id s).seq, prm := (withdrawRing id s).prm } := by
  unfold withdrawRing
  split
  · split
    · rw [endPrompt_frame]
    · rfl
  · rfl

/-- The state without a prompt that has ended, its position free, with nobody waiting for it (R153, R168). -/
def State.endedPrompt (s : State) (p : Prompt) : State := { s with
  line := if p.stage = .escalated then (s.queueing none (.promptCleared p.number)).line else s.line
  prm := { s.prm with
    prompts := s.prm.prompts.filter fun q => q.number ≠ p.number
    cells := match p.cellPos with
      | some i => s.prm.cells.set i .empty
      | none => s.prm.cells
    waiters := s.prm.waiters.filter fun w => w ≠ .prompt p.number } }

/-- What is removed may be changed before. -/
theorem filter_updWhere {α κ : Type} [DecidableEq κ] (key : α → κ) (k : κ) (f : α → α) (hf : ∀ x, key (f x) = key x) (l : List α) :
    ((updWhere (fun x => key x = k) f l).filter fun x => key x != k) = l.filter fun x => key x ≠ k := by
  induction l with
  | nil => rfl
  | cons x l ih =>
    simp only [updWhere, List.map_cons] at ih ⊢
    by_cases h : key x = k
    · rw [if_pos (decide_eq_true h), List.filter_cons_of_neg (by simp [hf, h]), List.filter_cons_of_neg (by simp [h]), ih]
    · rw [if_neg (by simp [h]), List.filter_cons_of_pos (by simp [h]), List.filter_cons_of_pos (by simp [h]), ih]

/-- A prompt ends whose NOTICE, if it was ESCALATED, has been sent (R153, R155, R168). -/
theorem endPrompt_eq {p : Prompt} (hp : s.prompt p.number = some p) (hw : p.cellPos ≠ none → s.prm.waiters = [])
    (he : p.stage = .escalated → p.notice = .sent ∧ s.lineRoom = true) : endPrompt p.number s = s.endedPrompt p := by
  have hclear : removePrompt p.number (clearEscalated p.number s) = { s with
      line := if p.stage = .escalated then (s.queueing none (.promptCleared p.number)).line else s.line
      prm := { s.prm with prompts := s.prm.prompts.filter fun q => q.number ≠ p.number } } := by
    simp only [clearEscalated, hp]
    by_cases hst : p.stage = .escalated
    · obtain ⟨hn, hroom⟩ := he hst
      have hoffer := offerTx_plain (s := updPrompt p.number (fun p => { p with notice := .none }) s) (dst := none)
        (b := .promptCleared p.number) hroom (by simp [Body.kind]) (by simp [Body.kind])
      rw [if_pos hst, hn]
      simp only [offerAll, hoffer, if_pos hst]
      have hf := filter_updWhere Prompt.number p.number (fun p => { p with notice := .none }) (fun _ => rfl) s.prm.prompts
      simp only [removePrompt, State.queueing, updPrompt, hf]
    · simp only [if_neg hst, removePrompt, filter_ne]
  have hstrike : (s.prm.waiters.filter fun w => w != Holder.prompt p.number) = s.prm.waiters.filter fun w => w ≠ .prompt p.number :=
    List.filter_congr fun w _ => by rw [Bool.eq_iff_iff]; simp
  simp only [endPrompt, hp, hclear, State.endedPrompt]
  cases hc : p.cellPos with
  | none => simp only [strikeWaiter, hstrike]
  | some i => simp only [freeCell, hw (by rw [hc]; nofun), setCell, List.filter_nil]

theorem mountPrompt_none_iff (s : State) (id : ReqId) (k : PromptKind) : s.mountPrompt id k = none
    ↔ ∀ p ∈ s.prm.prompts, p.mountId = some id → p.kind ≠ k := by
  simp [State.mountPrompt, List.find?_eq_none]

/-! ### A record that closes -/

/-- The state as the FETCH postings of a mount are taken back (R166). -/
def State.unposted (s : State) (id : ReqId) : State := { s with prm := { s.prm with postings := s.postingsWithout (some id) } }

theorem withdrawFetch_none {id : ReqId} (h : s.mountPrompt id .fetch = none) : withdrawFetch id s = s.unposted id := by
  have hpost : (s.prm.postings.filter fun p => !(p.kind = PromptKind.fetch && p.mountId = some id)) = s.postingsWithout (some id) :=
    List.filter_congr fun p _ => by rw [Bool.eq_iff_iff]; simp
  simp only [withdrawFetch, hpost, State.mountPrompt] at h ⊢
  rw [h]
  rfl

theorem withdrawFetch_some {id : ReqId} {p : Prompt} (h : s.mountPrompt id .fetch = some p) (ha : p.answer = .none) :
    withdrawFetch id s = endPrompt p.number (s.unposted id) := by
  have hpost : (s.prm.postings.filter fun p => !(p.kind = PromptKind.fetch && p.mountId = some id)) = s.postingsWithout (some id) :=
    List.filter_congr fun p _ => by rw [Bool.eq_iff_iff]; simp
  simp only [withdrawFetch, hpost, State.mountPrompt] at h ⊢
  rw [h]
  exact if_pos ha

theorem withdrawRing_none {id : ReqId} (h : s.mountPrompt id .ring = none) : withdrawRing id s = s := by
  rw [withdrawRing, h]

/-- The mount table and the drives once a record has closed (R110). -/
def State.mountsClosed (s : State) (m : MountRec) : MountUnit := { s.mnt with
  drives := if m.driveHeld = true then s.mnt.drives.modify m.drive DriveRec.released else s.mnt.drives
  mounts := s.mnt.mounts.filter fun x => x.id ≠ m.id }

/-- The waiting offers without a local sourcing (R110). -/
def State.unsourced (s : State) (id : ReqId) : State :=
  { s with seq := { s.seq with waiting := s.seq.waiting.filter fun w => w ≠ .sourceLocal id } }

theorem dropSourcing_eq (id : ReqId) (s : State) : dropSourcing id s = s.unsourced id := by
  have hf : (s.seq.waiting.filter fun w => w != WaitingOffer.sourceLocal id) = s.seq.waiting.filter fun w => w ≠ .sourceLocal id :=
    List.filter_congr fun w _ => by rw [Bool.eq_iff_iff]; simp
  rw [dropSourcing, hf]
  rfl

/-- A record's drive is given up, whether it holds one or not (R105). -/
theorem releaseDrive_eq {id : ReqId} {m : MountRec} (hm : s.mount id = some m) :
    releaseDrive id s = { s with mnt := { (releaseDrive id s).mnt with
        drives := if m.driveHeld = true then s.mnt.drives.modify m.drive DriveRec.released else s.mnt.drives } }
      ∧ (releaseDrive id s).mount id = some m.undriven
      ∧ (releaseDrive id s).mnt.mounts.filter (fun x => x.id != id) = s.mnt.mounts.filter (fun x => x.id ≠ id)
      ∧ (releaseDrive id s).mnt.notices = s.mnt.notices ∧ (releaseDrive id s).mnt.sent = s.mnt.sent := by
  by_cases hd : m.driveHeld = true
  · rw [releaseDrive_held hm hd, if_pos hd]
    exact ⟨rfl, mount_updMount_same undriven_id hm, filter_updWhere MountRec.id id MountRec.undriven undriven_id _, rfl, rfl⟩
  · rw [Bool.not_eq_true] at hd
    have hs := releaseDrive_unheld (s := s) (id := id) fun x hx => by rw [hm] at hx; cases hx; exact hd
    have hm' : m.undriven = m := by
      obtain ⟨⟩ := m
      simp only [MountRec.undriven] at hd ⊢
      rw [hd]
    rw [hs, hm', if_neg (by rw [hd]; nofun)]
    exact ⟨rfl, hm, List.filter_congr fun x _ => by rw [Bool.eq_iff_iff]; simp, rfl, rfl⟩

/-- A record closes: its prompts and postings are withdrawn, its drive is given up, and it is accounted for (R110). -/
theorem closeRecord_eq {id : ReqId} {m : MountRec} (hm : s.mount id = some m)
    (hw : withdrawRing id (withdrawFetch id (dropSourcing id (releaseDrive id s))) = t) :
    closeRecord id s = accountFor m { t with mnt := s.mountsClosed m } := by
  obtain ⟨h1, h2, h3, h4, h5⟩ := releaseDrive_eq hm
  have hid := (mount_spec hm).2
  have hmnt : t.mnt = (releaseDrive id s).mnt := by
    rw [← hw, withdrawRing_frame, withdrawFetch_frame]
    rfl
  have hmt : t.mount id = some m.undriven := by
    rw [← h2]
    simp only [State.mount, hmnt]
  have hclosed : dropMount id t = { t with mnt := s.mountsClosed m } := by
    have hdrives := congrArg (·.mnt.drives) h1
    simp only [dropMount, State.mountsClosed, hmnt, h3, hid, ← h4, ← h5]
    rw [hdrives]
  simp only [closeRecord, hw, hmt, hclosed]
  rfl

/-- What a record's closure leaves of the other blocks (R110). -/
theorem closeRecord_frame {id : ReqId} {m : MountRec} (hm : s.mount id = some m) : ∃ line seq prm acct,
    closeRecord id s = { s with line := line, mnt := s.mountsClosed m, seq := seq, prm := prm, acct := acct }
      ∧ acct.spool = s.acct.spool ++ [accountRecord s.acct.counter (s.globalDrive m.drive) s.settings m] := by
  rw [closeRecord_eq hm rfl]
  generalize hw : withdrawRing id (withdrawFetch id (dropSourcing id (releaseDrive id s))) = w
  have hframe : w = { s with line := w.line, seq := w.seq, prm := w.prm, mnt := (releaseDrive id s).mnt } := by
    rw [← hw, withdrawRing_frame, withdrawFetch_frame, (releaseDrive_eq hm).1]
    rfl
  have hspool := (accountFor_spool m { w with mnt := s.mountsClosed m }).1
  rw [accountFor_acct]
  rw [hframe] at hspool ⊢
  exact ⟨_, _, _, _, rfl, hspool⟩

theorem closeRecord_facts {id : ReqId} {m : MountRec} (hm : s.mount id = some m) :
    (closeRecord id s).mnt = s.mountsClosed m
      ∧ (closeRecord id s).acct.spool = s.acct.spool ++ [accountRecord s.acct.counter (s.globalDrive m.drive) s.settings m]
      ∧ (closeRecord id s).host = s.host ∧ (closeRecord id s).dir = s.dir ∧ (closeRecord id s).lane = s.lane
      ∧ (closeRecord id s).wear = s.wear ∧ (closeRecord id s).neg = s.neg := by
  obtain ⟨line, seq, prm, acct, heq, hspool⟩ := closeRecord_frame hm
  rw [heq]
  exact ⟨rfl, hspool, rfl, rfl, rfl, rfl, rfl⟩

/-- A record without prompts closes (R110). -/
theorem closeRecord_plain {id : ReqId} {m : MountRec} (hm : s.mount id = some m) (hf : s.mountPrompt id .fetch = none)
    (hr : s.mountPrompt id .ring = none) :
    closeRecord id s = accountFor m { (s.unposted id).unsourced id with mnt := s.mountsClosed m } := by
  have hrel := (releaseDrive_eq hm).1
  have hprm : ((releaseDrive id s).unsourced id).prm = s.prm := (congrArg State.prm hrel :)
  have hw : withdrawRing id (withdrawFetch id (dropSourcing id (releaseDrive id s))) = ((releaseDrive id s).unsourced id).unposted id := by
    rw [dropSourcing_eq, withdrawFetch_none (by rw [State.mountPrompt, hprm]; exact hf)]
    exact withdrawRing_none (by rw [State.mountPrompt, State.unposted, hprm]; exact hr)
  rw [closeRecord_eq hm hw, hrel]
  rfl

end
end Sys2Proof.Machine


/-! The AWARD of another station: the accept check, the record it makes, and how sourcing begins. -/

namespace Sys2Proof.Machine

-- One proof at a time: proofs that wait for each other on threads of their own would reserve more stack than the check allows.
set_option Elab.async false

section
variable {s t : State}

/-! ### What the end of an event leaves as it was -/

theorem settle_frame (k : Bool) (s : State) : settle k s = { s with
    seq := (selectArm s).seq
    prm := { s.prm with
      shown := (settle k s).prm.shown, browsing := (settle k s).prm.browsing, unconfirmed := (settle k s).prm.unconfirmed } } := by
  have hprm : (settle k s).prm = { s.prm with
      shown := (settle k s).prm.shown, browsing := (settle k s).prm.browsing, unconfirmed := (settle k s).prm.unconfirmed } := by
    rw [settle_prm, refreshDisplay_eq]
  have h := settle_eq k s
  rw [settle_seq] at h
  rw [← hprm]
  exact h

theorem lineRoom_of (h : s.onLine = true) (hw : s.line.waiting = []) (hq : s.line.queue.length < 16) : s.lineRoom = true := by
  have hc : (s.host.state != .conflict) = true := by
    rw [State.onLine, Bool.or_eq_true, decide_eq_true_eq, decide_eq_true_eq] at h
    obtain h | h := h <;> rw [h] <;> rfl
  rw [State.lineRoom, hc, Bool.true_and, State.txRoom, hw, Bool.and_eq_true]
  exact ⟨decide_eq_true hq, rfl⟩

/-! ### The record an accepted award makes -/

theorem tookMount_congr {id : ReqId} {m : MountRec} {u v : State} (h : s.tookMount id m u) (h1 : v.mnt = u.mnt) (h2 : v.acct = u.acct) :
    s.tookMount id m v := by
  simp only [State.tookMount, State.mount, State.account, h1, h2] at h ⊢
  exact h

theorem tookMount_make {id : ReqId} (h : s.mount id = none) (q : RequestTerms) (d : Nat) :
    s.tookMount id (MountRec.make id q d (s.reservedEstimate q.loc d)) (makeMount id q d s) := by
  obtain ⟨h1, h2⟩ := mount_make (q := q) (d := d) h
  obtain ⟨h3, h4, h5⟩ := makeMount_acct id q d s
  exact ⟨h1, h2, by rw [makeMount_eq]; rfl, h3, h4, h5⟩

/-- A request of another station: ACCEPT is queued for it, and sourcing begins (R58). -/
theorem acceptMount_peer (h : s.lineRoom = true) {id : ReqId} (hid : id.station ≠ s.addr) (hm : s.mount id = none) (q : RequestTerms) (d : Nat) :
    acceptMount id q d s = beginSourcing id q d ((makeMount id q d s).queueing (some id.station) (.accept id d)) := by
  have hmade := makeMount_eq id q d s
  have haddr : (makeMount id q d s).addr = s.addr := by rw [hmade]; rfl
  have hroom : (makeMount id q d s).lineRoom = true := by rw [hmade]; exact h
  have hoffer := offerTo_plain (a := id.station) (b := .accept id d) hroom (by simp [Body.kind]) (by simp [Body.kind])
  have hsome : (((makeMount id q d s).queueing (some id.station) (.accept id d)).mount id).isSome = true := by
    rw [show State.mount (State.queueing _ _ _) id = (makeMount id q d s).mount id from rfl, (mount_make hm).1]
    rfl
  rw [acceptMount]
  simp only [haddr, if_neg hid, hoffer]
  exact if_pos hsome

/-- Nobody waits for a position, and one is free (R154). -/
theorem askCell_free (hw : s.prm.waiters = []) {i : Nat} (hi : s.emptyCell = some i) (h : Holder) : askCell h s = grantCell i h s := by
  rw [askCell, hw, hi]
  rfl

theorem nextPrompt_fresh (h : s.prm.prompts.length < 255) {q : Prompt} (hq : q ∈ s.prm.prompts) : q.number ≠ s.nextPrompt := by
  intro he
  have hmem : s.nextPrompt ∈ s.prm.prompts.map (·.number) := List.mem_map.mpr ⟨q, hq, he⟩
  exact freshNumber_not_mem _ (by rw [List.length_map]; exact h) hmem

/-- What matches none of a list and the one behind it changes the one alone. -/
theorem updWhere_last {α : Type} {p : α → Bool} {l : List α} (hl : ∀ x ∈ l, p x = false) {r : α} (hr : p r = true) (f : α → α) :
    updWhere p f (l ++ [r]) = l ++ [f r] := by
  have hold : updWhere p f l = l := (List.map_congr_left fun x hx => if_neg (by simp [hl x hx])).trans (List.map_id' _)
  rw [updWhere, List.map_append]
  exact congrArg₂ (· ++ ·) hold (by simp [hr])

/-- A FETCH posting that enters is given a free position, with nobody waiting for one (R154, R156). -/
theorem enterPosting_fetch {p : Prompt} (hk : p.kind = .fetch) (hw : s.prm.waiters = []) {i : Nat} (hi : s.emptyCell = some i)
    (hn : s.prm.prompts.length < 255) :
    enterPosting p s = { s with prm := { s.prm with
      prompts := s.prm.prompts ++ [{ p with
        number := s.nextPrompt, posted := s.clock, timerStart := some s.clock, stage := .queued, answer := .none, notice := .none, cellPos := some i }]
      cells := s.prm.cells.set i (.reserved (.prompt s.nextPrompt))
      counter := (s.nextPrompt + 1) % 256 } } := by
  have hask : enterPosting p s = askCell (.prompt s.nextPrompt) (addPrompt p s) := by simp only [enterPosting, hk]
  have hlast := updWhere_last (p := fun q : Prompt => q.number = s.nextPrompt) (fun q hq => decide_eq_false (nextPrompt_fresh hn hq))
    (r := { p with number := s.nextPrompt, posted := s.clock, timerStart := some s.clock, stage := .queued, answer := .none, notice := .none })
    (decide_eq_true rfl) (fun q => { q with cellPos := some i, stage := .queued, timerStart := some s.clock })
  rw [hask, askCell_free (s := addPrompt p s) hw hi]
  exact congrArg (fun l => ({ s with prm := { s.prm with
    prompts := l, cells := s.prm.cells.set i (.reserved (.prompt s.nextPrompt)), counter := (s.nextPrompt + 1) % 256 } } : State)) hlast

/-- A posting that enters at once is given a free position, with nobody waiting for one (R154, R156). -/
theorem postOpen_fetch {p : Prompt} (hk : p.kind = .fetch) (hopen : s.openPrompts < 20) (hpost : s.prm.postings = [])
    (hw : s.prm.waiters = []) {i : Nat} (hi : s.emptyCell = some i) (hn : s.prm.prompts.length < 255) :
    postOpen p s = { s with prm := { s.prm with
      prompts := s.prm.prompts ++ [{ p with
        number := s.nextPrompt, posted := s.clock, timerStart := some s.clock, stage := .queued, answer := .none, notice := .none, cellPos := some i }]
      cells := s.prm.cells.set i (.reserved (.prompt s.nextPrompt))
      counter := (s.nextPrompt + 1) % 256 } } := by
  have hroom : s.postingRoom = true :=
    Bool.and_eq_true_iff.mpr ⟨decide_eq_true hopen, by rw [List.isEmpty_iff]; exact hpost⟩
  rw [postOpen, if_pos hroom, enterPosting_fetch hk hw hi hn]

theorem mount_closed (s : State) (m : MountRec) : State.mount { s with mnt := s.mountsClosed m } m.id = none := by
  rw [State.mount, List.find?_eq_none]
  intro x hx
  have := (List.mem_filter.mp hx).2
  simpa using this

/-- A record as the first failure is noted (R106). -/
def MountRec.noted (r : FailReason) (m : MountRec) : MountRec := { m with failure := some (m.failure.getD r) }

theorem noted_id (r : FailReason) (m : MountRec) : (m.noted r).id = m.id := rfl

theorem noteFailure_eq (id : ReqId) (r : FailReason) (s : State) : noteFailure id r s = updMount id (MountRec.noted r) s := rfl

/-- A drive allocated and given up again is free (R58, R105). -/
theorem allocated_released (l : List DriveRec) (d : Nat) (id : ReqId) :
    (l.modify d fun r => { r with state := .allocated, mountId := some id }).modify d DriveRec.released
      = l.modify d fun r => { r with state := .free, mountId := none } := by
  rw [List.modify_modify_eq]
  rfl

/-- The state once an accepted award has been revoked in the same event (R58, R62, assumption 52). -/
def State.revokedAtOnce (s : State) (id : ReqId) (q : RequestTerms) (d : Nat) : State := { (s.unposted id).unsourced id with
  mnt := { s.mnt with drives := s.mnt.drives.modify d fun r => { r with state := .free, mountId := none } }
  acct := (makeMount id q d s).acct }

theorem makeMount_counter (id : ReqId) (q : RequestTerms) (d : Nat) (s : State) :
    (makeMount id q d s).acct.counter = s.acct.counter := by
  rw [makeMount, evalSpool_next]
  rfl

/-- An award to this station itself that is accepted, with no such award outstanding: the record closes REVOKED at once (R58, R62,
assumption 52). -/
theorem acceptMount_revoked {id : ReqId} (hid : id.station = s.addr) (hm : s.mount id = none)
    (hp : ∀ p ∈ s.prm.prompts, p.mountId ≠ some id) (ho : ∀ o, s.origin id = some o → o.state ≠ .awarding ∨ o.awardee ≠ some s.addr)
    (q : RequestTerms) (d : Nat) : acceptMount id q d s
      = accountFor ((MountRec.make id q d (s.reservedEstimate q.loc d)).noted .revoked) (s.revokedAtOnce id q d) := by
  have hmade := makeMount_eq id q d s
  have haddr : (makeMount id q d s).addr = s.addr := by rw [hmade]; rfl
  have hprm : (makeMount id q d s).prm = s.prm := by rw [hmade]
  have hlate : takeAccept s.addr id (closeRevoked id) (makeMount id q d s) = closeRevoked id (makeMount id q d s) :=
    takeAccept_late (by rw [show (makeMount id q d s).origin id = s.origin id by rw [hmade]; rfl]; exact ho) _
  have hnone (k : PromptKind) : (updMount id (MountRec.noted .revoked) (makeMount id q d s)).mountPrompt id k = none := by
    rw [mountPrompt_none_iff, updMount_prm, hprm]
    exact fun p hq he => absurd he (hp p hq)
  have hclose : closeRevoked id (makeMount id q d s)
      = accountFor ((MountRec.make id q d (s.reservedEstimate q.loc d)).noted .revoked) (s.revokedAtOnce id q d) := by
    rw [closeRevoked, noteFailure_eq, closeRecord_plain (mount_updMount_same (noted_id _) (mount_make hm).1) (hnone _) (hnone _)]
    refine congrArg (accountFor _) ?_
    have hmounts : ((updWhere (fun x : MountRec => x.id = id) (MountRec.noted .revoked)
        (s.mnt.mounts ++ [MountRec.make id q d (s.reservedEstimate q.loc d)])).filter fun x => x.id ≠ id) = s.mnt.mounts := by
      have hold : ∀ x ∈ s.mnt.mounts, x.id ≠ id := by
        intro x hx hxid
        have := List.find?_eq_none.mp hm x hx
        simp [hxid] at this
      have hlast := updWhere_last (p := fun x : MountRec => x.id = id) (fun x hx => decide_eq_false (hold x hx))
        (r := MountRec.make id q d (s.reservedEstimate q.loc d)) (decide_eq_true rfl) (MountRec.noted .revoked)
      rw [hlast, List.filter_append, List.filter_eq_self.mpr fun x hx => decide_eq_true (hold x hx), List.filter_cons_of_neg (by simp [noted_id, MountRec.make])]
      exact List.append_nil _
    simp only [State.revokedAtOnce]
    generalize makeMount id q d s = v at hmade ⊢
    rw [hmade]
    exact congrArg₂ (fun ds ms => ({ (s.unposted id).unsourced id with mnt := { s.mnt with drives := ds, mounts := ms }, acct := v.acct } : State))
      (allocated_released ..) hmounts
  rw [acceptMount]
  simp only [haddr, if_pos hid, hlate, hclose]
  refine if_neg ?_
  rw [show State.mount (accountFor _ (s.revokedAtOnce id q d)) id = s.mount id by rw [accountFor_acct]; rfl, hm]
  nofun

/-- What an award revoked at once leaves in the accounts: one record, FAILED REVOKED with charge 0 (R110, R181, R187). -/
theorem revokedAtOnce_accounted (id : ReqId) (q : RequestTerms) (d : Nat) :
    ∃ acct, accountFor ((MountRec.make id q d (s.reservedEstimate q.loc d)).noted .revoked) (s.revokedAtOnce id q d)
        = { s with
          mnt := { s.mnt with drives := s.mnt.drives.modify d fun r => { r with state := .free, mountId := none } }
          seq := { s.seq with waiting := s.seq.waiting.filter fun w => w ≠ .sourceLocal id }
          prm := { s.prm with postings := s.postingsWithout (some id) }
          acct := acct }
      ∧ (∃ a, acct.spool = s.acct.spool ++ [a] ∧ a.mountId = id ∧ a.outcome = .failed ∧ a.reason = some .revoked
        ∧ a.charge = 0 ∧ a.sequence = s.acct.counter)
      ∧ ∀ n, (State.account { s with acct := acct } n).openMounts = (s.account n).openMounts := by
  obtain ⟨hacct, haccts, hspool⟩ := makeMount_acct id q d s
  have hcounter := makeMount_counter id q d s
  generalize hm : (MountRec.make id q d (s.reservedEstimate q.loc d)).noted .revoked = m
  obtain ⟨hsame, hother⟩ := accountFor_account m (s.revokedAtOnce id q d)
  have hrecord := (accountFor_spool m (s.revokedAtOnce id q d)).1
  refine ⟨_, accountFor_acct m _, ⟨_, hrecord.trans (congrArg (· ++ _) hspool), ?_⟩, fun n => ?_⟩
  · subst hm
    exact ⟨rfl, rfl, rfl, rfl, hcounter⟩
  · show ((accountFor m (s.revokedAtOnce id q d)).account n).openMounts = _
    by_cases hn : n = m.account
    · subst hn
      rw [hsame]
      subst hm
      exact congrArg (fun a : Account => a.openMounts - 1) hacct
    · rw [hother n hn]
      subst hm
      exact congrArg (·.openMounts) (haccts n hn)

/-! ### The AWARD taken -/

theorem onAward_declined (h : s.lineRoom = true) {id : ReqId} {d : Nat} {r : DeclineReason} (hr : s.awardRefusal id d = some r) (src : Nat)
    (q : RequestTerms) : onAward src id q d s = (dropBid id s).queueing (some src) (.decline id r) := by
  have hoffer := offerTo_plain (s := dropBid id s) (a := src) (b := .decline id r) h (by simp [Body.kind]) (by simp [Body.kind])
  rw [← hoffer, onAward]
  simp only [show State.awardRefusal (dropBid id s) id d = some r from hr]

theorem onAward_accepted {id : ReqId} {d : Nat} (hr : s.mayAccept id d) (src : Nat) (q : RequestTerms) :
    onAward src id q d s = acceptMount id q d (dropBid id s) := by
  rw [onAward]
  simp only [show State.awardRefusal (dropBid id s) id d = none from (awardRefusal_none_iff s id d).mpr hr]

/-- What accepting leaves of the other blocks: the mount table, the drives and the accounts alone are new. -/
theorem makeMount_parts (id : ReqId) (q : RequestTerms) (d : Nat) (s : State) :
    ∃ mnt acct, makeMount id q d s = { s with mnt := mnt, acct := acct } := ⟨_, _, makeMount_eq id q d s⟩

/-- An accepted award of another station, its reel at a third: ACCEPT and FETCH are queued (R58, R98). -/
theorem acceptMount_remote (hl : s.onLine = true) (hw : s.line.waiting = []) (hlen : s.line.queue.length < 15) {id : ReqId}
    (hid : id.station ≠ s.addr) (hm : s.mount id = none) {q : RequestTerms} {a : Nat} (hq : q.loc.station = some a) (ha : a ≠ s.addr) (d : Nat) :
    ∃ mnt acct, acceptMount id q d s = { s with
        mnt := mnt, acct := acct
        line := { s.line with queue := s.line.queue ++ [⟨some id.station, .accept id d, false, 0, false⟩,
          ⟨some a, .fetch id q.volser q.loc.slot s.addr q.cls, false, 0, false⟩] } }
      ∧ s.tookMount id { MountRec.make id q d (s.reservedEstimate q.loc d) with arrivalLimit := some s.timers.arrivalLimit }
        { s with mnt := mnt, acct := acct } := by
  have hpeer := acceptMount_peer (lineRoom_of hl hw (Nat.lt_succ_of_lt hlen)) hid hm q d
  obtain ⟨mnt, acct, hmade⟩ := makeMount_parts id q d s
  have htook := tookMount_make hm q d
  rw [hmade] at hpeer htook
  obtain ⟨h1, h2, h3, h4, h5, h6⟩ := htook
  have hroom : (({ s with mnt := mnt, acct := acct } : State).queueing (some id.station) (.accept id d)).lineRoom = true :=
    lineRoom_of (by exact hl) hw (by rw [State.queueing, List.length_append]; exact Nat.succ_lt_succ hlen)
  rw [beginSourcing_fetch hroom id hq ha d] at hpeer
  refine ⟨(updMount id (MountRec.fetchEntered s.timers.arrivalLimit) { s with mnt := mnt, acct := acct }).mnt, acct, hpeer.trans ?_, ?_,
    fun x hx => ?_, h3, h4, h5, h6⟩
  rotate_left
  · exact mount_updMount_same (s := { s with mnt := mnt, acct := acct }) (fetchEntered_id s.timers.arrivalLimit) h1
  · exact (mount_updMount_other (fetchEntered_id s.timers.arrivalLimit) hx { s with mnt := mnt, acct := acct }).trans (h2 x hx)
  · exact congrArg (fun l => ({ s with
      mnt := (updMount id (MountRec.fetchEntered s.timers.arrivalLimit) { s with mnt := mnt, acct := acct }).mnt, acct := acct
      line := { s.line with queue := l } } : State)) (List.append_assoc s.line.queue [_] [_])

/-- An accepted award of another station, its reel homed here: ACCEPT is queued, and the sourcing waits for its place (R58, R97). -/
theorem acceptMount_local (h : s.lineRoom = true) {id : ReqId} (hid : id.station ≠ s.addr) (hm : s.mount id = none) {q : RequestTerms}
    (hq : q.loc.station = some s.addr) (d : Nat) :
    ∃ mnt acct, acceptMount id q d s = { s with
        mnt := mnt, acct := acct, line := (s.queueing (some id.station) (.accept id d)).line
        seq := { s.seq with waiting := s.seq.waiting ++ [.sourceLocal id] } }
      ∧ s.tookMount id (MountRec.make id q d (s.reservedEstimate q.loc d)) { s with mnt := mnt, acct := acct } := by
  have hpeer := acceptMount_peer h hid hm q d
  obtain ⟨mnt, acct, hmade⟩ := makeMount_parts id q d s
  have htook := tookMount_make hm q d
  rw [hmade] at hpeer htook
  refine ⟨mnt, acct, hpeer.trans ?_, htook⟩
  simp only [beginSourcing, hq]
  exact if_pos rfl

/-- An accepted award of another station, its reel on the shelf: ACCEPT is queued, and the FETCH prompt posted (R58, R100, R156). -/
theorem acceptMount_shelf (h : s.lineRoom = true) {id : ReqId} (hid : id.station ≠ s.addr) (hm : s.mount id = none) {q : RequestTerms}
    (hq : q.loc.station = none) (d : Nat) :
    ∃ mnt acct, acceptMount id q d s = postOpen { Prompt.blank .fetch q.volser with ringWanted := q.write, drive := some d, mountId := some id }
        { s with mnt := mnt, acct := acct, line := (s.queueing (some id.station) (.accept id d)).line }
      ∧ s.tookMount id (MountRec.make id q d (s.reservedEstimate q.loc d)) { s with mnt := mnt, acct := acct } := by
  have hpeer := acceptMount_peer h hid hm q d
  obtain ⟨mnt, acct, hmade⟩ := makeMount_parts id q d s
  have htook := tookMount_make hm q d
  rw [hmade] at hpeer htook
  refine ⟨mnt, acct, hpeer.trans ?_, htook⟩
  simp only [beginSourcing, hq]
  rfl

/-- Settles O40: the chain of the accept check, and the four ways sourcing begins. -/
theorem awardIsChecked : Obligations.AwardIsChecked := by
  intro s f id q d hs h hwait hlen t declines c1 c2 c3 c4 c5
  obtain ⟨-, -, -, hsrc, honl, -⟩ := hears_parts (hears_of_accepts h)
  have hroom : t.lineRoom = true := lineRoom_of (s := t) honl hwait (Nat.lt_succ_of_lt hlen)
  have refused {r : DeclineReason} (hr : s.awardRefusal id d = some r) : declines r :=
    exec_accepts_ends h rfl nofun (onAward_declined (s := s.acked f) hroom hr f.src.toNat q) (settled_of_same hs rfl rfl rfl rfl)
  have hfree (h : ¬ c2) : ((s.drive d).map DriveRec.isFree).getD false = false :=
    Bool.not_eq_true _ ▸ mt (freeDrive_iff s d).mp h
  have hbusy (h : c2) : ¬ ((s.drive d).map DriveRec.isFree).getD false = false := by
    rw [(freeDrive_iff s d).mpr h]
    nofun
  have chain := awardRefusal_eq s id d
  have accepted (h1 : c1) (h2 : c2) (h3 : c3) (h4 : c4) (h5 : c5) : onAward f.src.toNat id q d (s.acked f) = acceptMount id q d t :=
    onAward_accepted (s := s.acked f) ⟨h1, h2, h3, h4, h5⟩ f.src.toNat q
  refine ⟨fun n1 => ?_, fun h1 n2 => ?_, fun h1 h2 n3 => ?_, fun h1 h2 h3 n4 => ?_, fun h1 h2 h3 h4 n5 => ?_, fun h1 h2 h3 h4 h5 a hq ha hid => ?remote,
    fun h1 h2 h3 h4 h5 hid => ?_, fun h1 h2 h3 h4 h5 hid hp ho => ?own⟩
  · exact refused (chain.trans (if_pos n1))
  · exact refused (chain.trans ((if_neg (not_not.mpr h1)).trans (if_pos (hfree n2))))
  · exact refused (chain.trans ((if_neg (not_not.mpr h1)).trans ((if_neg (hbusy h2)).trans (if_pos n3))))
  · exact refused (chain.trans ((if_neg (not_not.mpr h1)).trans ((if_neg (hbusy h2)).trans ((if_neg (not_not.mpr h3)).trans (if_pos n4)))))
  · exact refused (chain.trans ((if_neg (not_not.mpr h1)).trans ((if_neg (hbusy h2)).trans ((if_neg (not_not.mpr h3)).trans
      ((if_neg (not_not.mpr h4)).trans (if_pos n5))))))
  case remote =>
    obtain ⟨mnt, acct, heq, h1', h2', h3', h4', h5', h6'⟩ := acceptMount_remote (s := t) honl hwait hlen hid h4 hq ha d
    exact ⟨_, exec_accepts_ends h rfl nofun ((accepted h1 h2 h3 h4 h5).trans heq) (settled_of_same hs rfl rfl rfl rfl),
      h1', h3', h2', h4', h5', rfl, rfl, h6', rfl, rfl, rfl, rfl, rfl, rfl⟩
  · intro record takes fetch
    refine ⟨fun hq => ?_, fun hq => ⟨fun i hopen hpost hw hi hn => ?_, fun hfull => ?_⟩⟩
    · obtain ⟨mnt, acct, heq, htook⟩ := acceptMount_local (s := t) hroom hid h4 hq d
      exact ⟨_, ⟨exec_accepts_ends h rfl nofun ((accepted h1 h2 h3 h4 h5).trans heq) (settled_of_same hs rfl rfl rfl rfl),
        tookMount_congr (u := { t with mnt := mnt, acct := acct }) htook rfl rfl, rfl, rfl, rfl, rfl, rfl, rfl⟩, rfl, rfl⟩
    · obtain ⟨mnt, acct, heq, htook⟩ := acceptMount_shelf (s := t) hroom hid h4 hq d
      have hopened := postOpen_fetch (s := { t with mnt := mnt, acct := acct, line := (t.queueing (some id.station) (.accept id d)).line })
        (p := fetch) rfl hopen hpost hw hi hn
      refine ⟨_, ⟨exec_accepts h rfl nofun ((accepted h1 h2 h3 h4 h5).trans (heq.trans hopened)),
        tookMount_congr (u := { t with mnt := mnt, acct := acct }) htook (settle_mnt ..) (settle_acct ..),
        settle_line .., settle_neg .., settle_host .., settle_dir .., settle_lane .., settle_wear ..⟩, ?_, settle_prompts .., settle_cells .., ?_, ?_⟩
      · refine (settle_seq_kept hs ?_ ?_ ?_ ?_ false).trans ?_ <;> rfl
      · rw [settle_frame]
        exact hpost
      · rw [settle_frame]
        rfl
    · obtain ⟨mnt, acct, heq, htook⟩ := acceptMount_shelf (s := t) hroom hid h4 hq d
      have hpost : ¬ State.postingRoom { t with mnt := mnt, acct := acct, line := (t.queueing (some id.station) (.accept id d)).line } = true := by
        intro hp
        obtain ⟨ha, hb⟩ := Bool.and_eq_true_iff.mp hp
        exact hfull.elim (fun e => absurd (of_decide_eq_true ha) (not_lt.mpr e)) fun e => e (List.isEmpty_iff.mp hb)
      refine ⟨_, ⟨exec_accepts_ends h rfl nofun ((accepted h1 h2 h3 h4 h5).trans (heq.trans (if_neg hpost))) ?_,
        tookMount_congr (u := { t with mnt := mnt, acct := acct }) htook rfl rfl, rfl, rfl, rfl, rfl, rfl, rfl⟩, rfl, rfl⟩
      exact settled_of_display hs rfl rfl rfl rfl (displaySettled_congr rfl rfl rfl rfl)
  case own =>
    have heq := (accepted h1 h2 h3 h4 h5).trans (acceptMount_revoked (s := t) hid h4 hp ho q d)
    obtain ⟨acct, hu, hspool, hopens⟩ := revokedAtOnce_accounted (s := t) id q d
    rw [hu] at heq
    exact ⟨_, exec_accepts_ends h rfl nofun heq (settled_of_display hs rfl rfl rfl rfl (displaySettled_congr rfl rfl rfl rfl)),
      rfl, rfl, hspool, hopens, rfl, rfl, rfl, rfl, rfl, rfl, rfl, rfl⟩

end
end Sys2Proof.Machine


/-! REVOKE and CANCEL at the awardee. -/

namespace Sys2Proof.Machine

-- One proof at a time: proofs that wait for each other on threads of their own would reserve more stack than the check allows.
set_option Elab.async false

section
variable {s t : State}

/-! ### A revoked record that closes -/

/-- What a closure as FAILED spools, charge 0 (R181, R187). -/
theorem accountRecord_failed {m : MountRec} (h : m.reachedMounted = false) {r : FailReason} (hf : m.failure = some r) (n g : Nat) (c : Settings) :
    (accountRecord n g c m).outcome = .failed ∧ (accountRecord n g c m).reason = some r ∧ (accountRecord n g c m).charge = 0
      ∧ (accountRecord n g c m).sequence = n ∧ (accountRecord n g c m).mountId = m.id := by
  have ho : m.outcome = .failed := by
    rw [outcome_lost (by rw [h]; nofun), hf]
    rfl
  refine ⟨ho, hf, ?_, rfl, rfl⟩
  simp only [accountRecord, exactCharge, ho, Nat.zero_min]

/-- An allocated drive is given up (R105). -/
theorem modify_released {l : List DriveRec} {d : Nat} {r : DriveRec} (h : l[d]? = some r) (hr : r.state = .allocated) :
    l.modify d DriveRec.released = l.modify d fun r => { r with state := .free, mountId := none } := by
  refine List.ext_getElem? fun i => ?_
  rw [List.getElem?_modify, List.getElem?_modify]
  by_cases hi : d = i
  · subst hi
    simp [h, DriveRec.released, hr]
  · simp [hi]

/-- A FETCH prompt that leaves with its record, and the prompts that stay. -/
theorem endedPrompt_mountPrompt {id : ReqId} {k : PromptKind} (p : Prompt) (h : s.mountPrompt id k = none) :
    (s.endedPrompt p).mountPrompt id k = none := by
  rw [mountPrompt_none_iff] at *
  exact fun q hq => h q (List.mem_filter.mp hq).1

/-- A record closes whose FETCH prompt holds no answer: the prompt is withdrawn (R110, R166). -/
theorem closeRecord_fetch {id : ReqId} {m : MountRec} (hm : s.mount id = some m) {p : Prompt} (hf : s.mountPrompt id .fetch = some p)
    (ha : p.answer = .none) (hp : s.prompt p.number = some p) (hw : p.cellPos ≠ none → s.prm.waiters = [])
    (he : p.stage = .escalated → p.notice = .sent ∧ s.lineRoom = true) (hr : s.mountPrompt id .ring = none) :
    closeRecord id s = accountFor m { ((s.unsourced id).unposted id).endedPrompt p with mnt := s.mountsClosed m } := by
  have hrel := (releaseDrive_eq hm).1
  generalize hmnt : ({ (releaseDrive id s).mnt with
    drives := if m.driveHeld = true then s.mnt.drives.modify m.drive DriveRec.released else s.mnt.drives } : MountUnit) = mnt at hrel
  have hend := endPrompt_eq (s := ({ s with mnt := mnt } : State).unsourced id |>.unposted id) hp hw he
  have hclose : withdrawRing id (withdrawFetch id (dropSourcing id (releaseDrive id s)))
      = ((({ s with mnt := mnt } : State).unsourced id).unposted id).endedPrompt p := by
    rw [hrel, dropSourcing_eq, withdrawFetch_some (s := ({ s with mnt := mnt } : State).unsourced id) hf ha, hend]
    exact withdrawRing_none (endedPrompt_mountPrompt (s := (({ s with mnt := mnt } : State).unsourced id).unposted id) p hr)
  rw [closeRecord_eq hm hclose]
  rfl

/-! ### A record that turns back on the way to its drive -/

/-- A record that returns its reel (R105). -/
def MountRec.returning (m : MountRec) : MountRec := { m with stage := .returning }

theorem returning_id (m : MountRec) : m.returning.id = m.id := rfl

theorem updMount_chain {f g h : MountRec → MountRec} (hf : ∀ m, (f m).id = m.id) (hg : ∀ m, (g m).id = m.id) (id : ReqId) (s : State) :
    updMount id h (updMount id g (updMount id f s)) = updMount id (fun m => h (g (f m))) s := by
  rw [updMount_updMount hf, updMount_updMount (f := fun m => g (f m)) fun m => (hg _).trans (hf m)]

/-- The leg of a record that turns back goes to its home slot, its place not issued (R105, R108). -/
theorem turnBack_toDrive {id : ReqId} {m : MountRec} (hm : s.mount id = some m) (ht : m.turningBack = false) (hst : m.stage = .toDrive)
    (ha : s.answerHeld id = false) (hd : m.driveHeld = true) {k : Nat} (hh : m.home = some s.addr) (hk : s.returnCheck m.volser = some k)
    {o : ArmOrder} (ho : s.orderOf id = some o) (hon : s.order o.number = some o) (hp : s.placeIssued o = false) (hdiv : o.diverted = false)
    {e : Nat} (hdst : o.dst = .drive e) :
    turnBack id s = updOrder o.number (fun o => { o with dst := .slot k, cellUse := .none, routing := none, laneRetry := false })
      (updDrive m.drive DriveRec.released (updMount id (fun m => m.turned.returning.undriven) s)) := by
  have hm1 : (updMount id MountRec.turned s).mount id = some m.turned := mount_updMount_same turned_id hm
  have hm2 : (updMount id MountRec.returning (updMount id MountRec.turned s)).mount id = some m.turned.returning :=
    mount_updMount_same returning_id hm1
  have hhome := releaseDrive_held hm2 hd
  rw [updMount_chain turned_id returning_id] at hhome
  have hdest : (updMount id MountRec.turned s).checkedDest m.turned = ⟨.slot k, .none, none⟩ := by
    have hk' : (updMount id MountRec.turned s).returnCheck m.turned.volser = some k := hk
    simp only [State.checkedDest, State.returnDest, hk', show m.turned.home = some s.addr from hh]
    exact if_pos rfl
  have hturn : turnBack id s = turnLeg id (updMount id MountRec.turned s) := by
    simp only [turnBack, hm, ht, Bool.false_eq_true, if_false, hst, ha]
    rfl
  have hleg : turnLeg id (updMount id MountRec.turned s) = redirect o.number (.slot k) .none none
      (releaseDrive id (updMount id MountRec.returning (updMount id MountRec.turned s))) := by
    simp only [turnLeg, show (updMount id MountRec.turned s).orderOf id = some o from ho, hm1,
      show (updMount id MountRec.turned s).placeIssued o = false from hp, hdiv, hdest, Bool.false_eq_true, if_false]
    rfl
  rw [hturn, hleg, hhome, redirect]
  simp only [show State.order (updDrive _ _ (updMount id (fun m => m.turned.returning.undriven) s)) o.number = some o from hon,
    releaseDst, hdst, askDst]
  rfl

/-! ### REVOKE -/

/-- A REVOKE for no live record, or one that has been MOUNTED (R62). -/
theorem onRevoke_ignored {id : ReqId} {a : Nat} (h : ∀ m, s.mount id = some m → m.originator ≠ a ∨ m.reachedMounted = true) :
    onRevoke a id s = dropBid id s := by
  unfold onRevoke
  dsimp only
  split
  next m hm => exact if_pos (h m hm)
  next => rfl

theorem onRevoke_taken {id : ReqId} {m : MountRec} {a : Nat} (hm : s.mount id = some m) (ho : m.originator = a) (hr : m.reachedMounted = false) :
    onRevoke a id s = if s.untouched m then closeRevoked id (dropBid id s)
      else turnBack id (noteFailure id .revoked (updMount id (fun m => { m with cancelPending := true }) (dropBid id s))) := by
  have h1 : ¬ (m.originator ≠ a ∨ m.reachedMounted = true) := fun h => h.elim (fun e => e ho) fun e => by rw [hr] at e; cases e
  simp only [onRevoke, show State.mount (dropBid id s) id = some m from hm, if_neg h1]
  rfl

/-- A record revoked: marked for cancellation, its first failure kept (R62, R106). -/
def MountRec.revoked (m : MountRec) : MountRec :=
  { m with cancelPending := true, failure := some (m.failure.getD .revoked) }

theorem revoked_id (m : MountRec) : m.revoked.id = m.id := rfl

theorem onRevoke_turns {id : ReqId} {m : MountRec} {a : Nat} (hm : s.mount id = some m) (ho : m.originator = a) (hr : m.reachedMounted = false)
    (hu : s.untouched m = false) : onRevoke a id s = turnBack id (updMount id MountRec.revoked (dropBid id s)) := by
  have hboth := updMount_updMount (f := fun m => { m with cancelPending := true }) (g := MountRec.noted .revoked) (fun _ => rfl) id (dropBid id s)
  rw [onRevoke_taken hm ho hr, hu, noteFailure_eq, hboth]
  rfl

/-- What a closure leaves in the mount table and the drives is the same for a record with its failure noted. -/
theorem mountsClosed_updMount {f : MountRec → MountRec} (hf : ∀ m, (f m).id = m.id) {m : MountRec}
    (hd : (f m).driveHeld = m.driveHeld ∧ (f m).drive = m.drive) (s : State) :
    (updMount m.id f s).mountsClosed (f m) = s.mountsClosed m := by
  have hl : ((updWhere (fun x : MountRec => x.id = m.id) f s.mnt.mounts).filter fun x => x.id ≠ m.id) = s.mnt.mounts.filter fun x => x.id ≠ m.id := by
    refine Eq.trans (List.filter_congr fun x _ => ?_) (filter_updWhere MountRec.id m.id f hf _)
    rw [Bool.eq_iff_iff]
    simp
  simp only [State.mountsClosed, hd, hf]
  exact congrArg (fun l : List MountRec => ({ s.mnt with
    drives := if m.driveHeld = true then s.mnt.drives.modify m.drive DriveRec.released else s.mnt.drives, mounts := l } : MountUnit)) hl

theorem untouched_iff (s : State) (m : MountRec) : s.untouched m = true
    ↔ m.stage = .sourcing ∧ s.answerHeld m.id = false ∧ ∀ a, m.home = some a → a = s.addr := by
  simp only [State.untouched, Bool.and_eq_true, decide_eq_true_eq, Bool.not_eq_true', and_assoc]
  cases m.home <;> simp

/-- Settles O42: REVOKE by what has been done for the record, CANCEL as `onCancel` has it. -/
theorem revokeAndCancel : Obligations.RevokeAndCancel := by
  refine ⟨fun s f id hs h => ⟨fun hn => ?ignored, fun m hm ho hr hd ha => ?taken⟩, fun s f id hs h hn => ?cancelIgnored,
    fun s f id m hs h hm ho hr hroom => ⟨fun hre hf => ?late, fun hre hc hr hf hst ht hd ha a hh hne => ?cancels⟩⟩
  case ignored =>
    exact exec_accepts_ends h rfl nofun (onRevoke_ignored (s := s.acked f) hn) (settled_of_same hs rfl rfl rfl rfl)
  case taken =>
    intro a turned
    have hid := (mount_spec hm).2
    have hans : (s.acked f).answerHeld id = false := answerHeld_false (s := s.acked f) ha
    have hma : State.mount (updMount id MountRec.revoked a) id = some m.revoked := mount_updMount_same (s := a) revoked_id hm
    have turns (hu : (s.acked f).untouched m = false) : onRevoke f.src.toNat id (s.acked f) = turnBack id (updMount id MountRec.revoked a) :=
      onRevoke_turns (s := s.acked f) hm ho hr hu
    refine ⟨fun r hst hh hf hdr hall hring => ?untouched, fun b ht hst hh hne => ?remote, fun o k ht hst hh hk horder hon hp hdiv hdst => ?leg⟩
    case untouched =>
      intro closes
      have hu : (s.acked f).untouched m = true := (untouched_iff (s.acked f) m).mpr ⟨hst, by rw [hid]; exact hans, by rw [hh]; nofun⟩
      have hrow : onRevoke f.src.toNat id (s.acked f) = closeRecord id (updMount id (MountRec.noted .revoked) a) :=
        (onRevoke_taken (s := s.acked f) hm ho hr).trans (if_pos hu)
      have hmn : State.mount (updMount id (MountRec.noted .revoked) a) id = some (m.noted .revoked) := mount_updMount_same (s := a) (noted_id _) hm
      obtain ⟨hmnt, hspool, hhost, hdir, hlane, hwear, hneg⟩ := closeRecord_facts hmn
      have hclosed := mountsClosed_updMount (f := MountRec.noted .revoked) (m := m) (noted_id _) ⟨rfl, rfl⟩ a
      rw [hid] at hclosed
      rw [hclosed] at hmnt
      have hrec := accountRecord_failed (m := m.noted .revoked) (r := .revoked) hr
        (show some (m.failure.getD .revoked) = some .revoked by rw [hf]; rfl)
      have closed {w : State} (hw : closeRecord id (updMount id (MountRec.noted .revoked) a) = accountFor (m.noted .revoked) w)
          (hseq : w.seq = { s.seq with waiting := s.seq.waiting.filter fun w => w ≠ .sourceLocal id })
          (hdoor : w.prm.doorOpen = s.prm.doorOpen) (hpost : w.prm.postings = s.postingsWithout (some id))
          {cells : List CellPos} (hcells : w.prm.cells = cells) {line : LineUnit} (hline : w.line = line) :
          closes w.prm.prompts cells w.prm.waiters line := by
        subst hcells hline
        obtain ⟨acct, hacct⟩ : ∃ acct, accountFor (m.noted .revoked) w = { w with acct := acct } := ⟨_, accountFor_acct ..⟩
        rw [hw, hacct] at hmnt hspool hhost hdir hlane hwear hneg
        obtain ⟨h1, h2, h3, h4, h5⟩ := hrec s.acct.counter (State.globalDrive (updMount id (MountRec.noted .revoked) a) m.drive)
          (State.settings (updMount id (MountRec.noted .revoked) a))
        have hspooled : ∃ x, acct.spool = s.acct.spool ++ [x] ∧ x.mountId = id ∧ x.outcome = .failed ∧ x.reason = some .revoked
            ∧ x.charge = 0 ∧ x.sequence = s.acct.counter := ⟨_, hspool, h5.trans hid, h1, h2, h3, h4⟩
        refine ⟨_, exec_accepts h rfl nofun (hrow.trans (hw.trans hacct)), ?_, ?_, ?_, ⟨?_, ?_, ?_, ?_⟩, ?_, ?_, ?_, ?_, ?_, ?_, ?_⟩
        · rw [settle_mnt, hmnt, ← hid]
          rfl
        · rw [settle_mnt, hmnt, ← modify_released hdr hall]
          exact if_pos hd
        · rw [settle_acct]
          exact hspooled
        · exact settle_prompts ..
        · exact settle_cells ..
        · rw [settle_frame]
        · rw [settle_frame]
          exact hpost
        · exact settle_line ..
        · exact (settle_neg ..).trans hneg
        · exact (settle_host ..).trans hhost
        · exact (settle_dir ..).trans hdir
        · exact (settle_lane ..).trans hlane
        · exact (settle_wear ..).trans hwear
        · exact (settle_seq_kept (t := { w with acct := acct }) hs (by rw [hseq]) (by rw [hseq]) (by rw [hseq]) hdoor false).trans hseq
      refine ⟨fun hfetch => ?_, fun p hfetch hp hcell hesc => ?_⟩
      · exact closed (closeRecord_plain hmn hfetch hring) rfl rfl rfl rfl rfl
      · have hpa : p.answer = .none := by
          have := List.find?_some hfetch
          simp only [Bool.and_eq_true, decide_eq_true_eq] at this
          exact ha p (List.mem_of_find?_eq_some hfetch) this.1
        have hclose := closeRecord_fetch (s := updMount id (MountRec.noted .revoked) a) hmn hfetch hpa hp hcell hesc hring
        refine closed hclose rfl rfl rfl ?_ ?_
        · simp only [State.endedPrompt]
          cases p.cellPos <;> rfl
        · simp only [State.endedPrompt]
          split <;> rfl
    case remote =>
      have hans' : State.answerHeld (updMount id MountRec.revoked a) id = false := hans
      have hback := turnBack_remote hma ht hst hans' hh hne hd
      rw [updMount_updMount revoked_id] at hback
      refine exec_accepts_ends h rfl nofun ((turns ?_).trans hback) (settled_of_same hs rfl rfl rfl rfl)
      rw [Bool.eq_false_iff]
      exact fun hu => hne (((untouched_iff _ m).mp hu).2.2 b hh)
    case leg =>
      have hans' : State.answerHeld (updMount id MountRec.revoked a) id = false := hans
      have hback := turnBack_toDrive (s := updMount id MountRec.revoked a) hma ht hst hans' hd hh hk horder hon hp hdiv hdst
      rw [updMount_updMount revoked_id] at hback
      have hturn := turns (by
        rw [Bool.eq_false_iff]
        exact fun hu => nomatch hst.symm.trans ((untouched_iff _ m).mp hu).1)
      intro home
      refine (exec_accepts h rfl nofun (hturn.trans hback)).trans ?_
      simp only [updOrder, updWhere, decide_eq_true_eq]
      rfl
  case cancelIgnored =>
    refine exec_accepts_ends h rfl nofun ?_ (settled_of_same hs rfl rfl rfl rfl)
    show onCancel f.src.toNat id (s.acked f) = s.acked f
    unfold onCancel
    split
    next m hm =>
      obtain h | h | ⟨h1, h2⟩ | ⟨h1, h2⟩ := hn m hm
      · exact if_pos (.inl h)
      · exact if_pos (.inr h)
      · simp only [h1, h2, Bool.false_eq_true, if_false, if_true, ite_self]
      · simp only [h1, h2, if_true, ite_self]
    next => rfl
  case late =>
    refine exec_accepts_ends h rfl nofun ((onCancel_late (s := s.acked f) hm ho hr hre hf).trans ?_) (settled_of_same hs rfl rfl rfl rfl)
    obtain ⟨-, -, -, hsrc, -⟩ := hears_parts (hears_of_accepts h)
    exact (if_neg hsrc).trans (offerTo_plain (s := s.acked f) hroom (by simp [Body.kind]) (by simp [Body.kind]))
  case cancels =>
    obtain ⟨-, -, -, hsrc, -⟩ := hears_parts (hears_of_accepts h)
    have hsend : sendResult f.src.toNat id .cancelled 0 (updMount id MountRec.cancelled (s.acked f)) = _ :=
      (if_neg hsrc).trans (offerTo_plain (s := updMount id MountRec.cancelled (s.acked f)) hroom (by simp [Body.kind]) (by simp [Body.kind]))
    refine exec_accepts_ends h rfl nofun ((onCancel_remote (s := s.acked f) hm ho hr hre hc hf hst ht hd ha hh hne hsend rfl rfl rfl).trans ?_)
      (settled_of_same hs rfl rfl rfl rfl)
    rfl

end
end Sys2Proof.Machine


/-! A record that fails and closes at once; FETCH at the holder and NOT HERE at the awardee. -/

namespace Sys2Proof.Machine

-- One proof at a time: proofs that wait for each other on threads of their own would reserve more stack than the check allows.
set_option Elab.async false

section
variable {s t : State}

/-! ### A failure told -/

/-- A frame whose entry starts nothing touches the line alone, whether it enters the queue, waits or is discarded (R35, R43). -/
theorem offerTx_frame {f : TxFrame} (hp : f.body.kind ∉ [.locate, .offer, .award, .fetch, .promptNotice, .deposit]) (s : State) :
    offerTx f s = { s with line := (offerTx f s).line } := by
  have hin : frameEntered f s = s := frameEntered_plain hp s
  have henter : enterQueue f s = { s with line := (enterQueue f s).line } := by
    unfold enterQueue
    rw [hin]
    dsimp only
    split <;> rfl
  unfold offerTx
  rw [hin, henter]
  dsimp only
  split
  · rfl
  · split
    · split
      · rfl
      · split <;> rfl
    · split <;> rfl

/-- A record as RESULT FAILED has gone with its first failure (R106). -/
def MountRec.failedAs (r : FailReason) (m : MountRec) : MountRec := { m with failure := some (m.failure.getD r), resultSent := .failed }

theorem failedAs_id (r : FailReason) (m : MountRec) : (m.failedAs r).id = m.id := rfl

/-- A record's failure is told to its originator, another station, if no RESULT has gone (R106). -/
theorem failRecord_tells {id : ReqId} {m : MountRec} {r : FailReason} (hm : s.mount id = some m) (hr : m.resultSent = .none)
    (hf : m.failure = none) (hne : r ≠ .revoked) (ho : m.originator ≠ s.addr) (hroom : s.lineRoom = true) :
    failRecord id r s = (updMount id (MountRec.failedAs r) s).queueing (some m.originator) (.result id (.failed r) 0) := by
  have hm1 : (noteFailure id r s).mount id = some (m.noted r) := mount_updMount_same (noted_id r) hm
  have hfail : (m.noted r).failure.getD r = r := by
    simp only [MountRec.noted, hf]
    rfl
  have hboth := updMount_updMount (f := MountRec.noted r) (g := fun m => { m with resultSent := .failed }) (noted_id r) id s
  simp only [failRecord, hm1, hfail]
  refine (if_pos ⟨hr, hne⟩).trans ((if_neg ho).trans ?_)
  refine (offerTo_plain (s := updMount id (fun m => { m with resultSent := .failed }) (noteFailure id r s)) (a := m.originator)
    (b := .result id (.failed r) 0) hroom (by simp [Body.kind]) (by simp [Body.kind])).trans ?_
  rw [noteFailure_eq, hboth]
  rfl

theorem sendResult_frame {a : Nat} (h : a ≠ s.addr) (id : ReqId) (k : ResultKind) (g : Nat) :
    sendResult a id k g s = { s with line := (sendResult a id k g s).line } := by
  rw [sendResult, if_neg h, offerTo, offerTx_frame (by simp [Body.kind])]

/-- What a failure leaves of the other blocks; the record stands, with a failure noted (R106). -/
theorem failRecord_frame {id : ReqId} {m : MountRec} {r : FailReason} (hm : s.mount id = some m) (ho : m.originator ≠ s.addr) :
    ∃ line, ∃ f : MountRec → MountRec, (∀ x, (f x).id = x.id ∧ (f x).driveHeld = x.driveHeld ∧ (f x).drive = x.drive)
      ∧ failRecord id r s = { updMount id f s with line := line } := by
  have hm1 : (noteFailure id r s).mount id = some (m.noted r) := mount_updMount_same (noted_id r) hm
  have hboth : updMount id (fun m => { m with resultSent := .failed }) (updMount id (MountRec.noted r) s) = updMount id (MountRec.failedAs r) s :=
    updMount_updMount (noted_id r) id s
  simp only [failRecord, hm1]
  by_cases h : (m.noted r).resultSent = .none ∧ (m.noted r).failure.getD r ≠ .revoked
  · rw [if_pos h, noteFailure_eq, hboth]
    exact ⟨_, MountRec.failedAs r, fun _ => ⟨rfl, rfl, rfl⟩, sendResult_frame (s := updMount id (MountRec.failedAs r) s) ho ..⟩
  · rw [if_neg h]
    exact ⟨s.line, MountRec.noted r, fun _ => ⟨rfl, rfl, rfl⟩, rfl⟩

/-! ### A record that fails and closes at once -/

/-- A record that has told nothing and has no prompts fails and closes: RESULT FAILED is queued, its drive given up, and it is accounted
for (R106, R110). -/
theorem failAndClose_plain {id : ReqId} {m : MountRec} {r : FailReason} (hm : s.mount id = some m) (hr : m.resultSent = .none)
    (hf : m.failure = none) (hne : r ≠ .revoked) (ho : m.originator ≠ s.addr) (hroom : s.lineRoom = true)
    (hfetch : s.mountPrompt id .fetch = none) (hring : s.mountPrompt id .ring = none) :
    failAndClose id r s = accountFor (m.failedAs r) { ((s.queueing (some m.originator) (.result id (.failed r) 0)).unposted id).unsourced id with
      mnt := s.mountsClosed m } := by
  rw [failAndClose, failRecord_tells hm hr hf hne ho hroom]
  have hm1 : ((updMount id (MountRec.failedAs r) s).queueing (some m.originator) (.result id (.failed r) 0)).mount id = some (m.failedAs r) :=
    mount_updMount_same (failedAs_id r) hm
  have hclosed := mountsClosed_updMount (f := MountRec.failedAs r) (m := m) (failedAs_id r) ⟨rfl, rfl⟩ s
  rw [(mount_spec hm).2] at hclosed
  rw [closeRecord_plain hm1 hfetch hring, ← hclosed]
  rfl

/-- What the failure and closure of a record leaves of the other blocks (R106, R110). -/
theorem failAndClose_frame {id : ReqId} {m : MountRec} {r : FailReason} (hm : s.mount id = some m) (ho : m.originator ≠ s.addr) :
    ∃ line seq prm acct, failAndClose id r s = { s with line := line, mnt := s.mountsClosed m, seq := seq, prm := prm, acct := acct }
      ∧ acct.spool.length = s.acct.spool.length + 1 := by
  obtain ⟨line, f, hkeep, heq⟩ := failRecord_frame (r := r) hm ho
  have hm1 : State.mount { updMount id f s with line := line } id = some (f m) := mount_updMount_same (fun x => (hkeep x).1) hm
  obtain ⟨line', seq, prm, acct, hclose, hspool⟩ := closeRecord_frame hm1
  have hclosed : State.mountsClosed { updMount id f s with line := line } (f m) = s.mountsClosed m := by
    have := mountsClosed_updMount (m := m) (fun x => (hkeep x).1) (hkeep m).2 s
    rw [(mount_spec hm).2] at this
    exact this
  rw [hclosed] at hclose
  refine ⟨line', seq, prm, acct, ?_, ?_⟩
  · rw [failAndClose, heq, hclose]
    rfl
  · rw [hspool, List.length_append]
    rfl

/-- The mount table without a record that has closed (R110). -/
theorem mountsClosed_mounts {id : ReqId} {m : MountRec} (hm : s.mount id = some m) :
    (s.mountsClosed m).mounts = s.mnt.mounts.filter fun x => x.id ≠ id := by
  rw [State.mountsClosed, (mount_spec hm).2]

/-- What a record without prompts leaves as it fails and closes: RESULT FAILED in the queue, its drive free, and one accounting record
with charge 0 (R106, R110, R187). -/
theorem failAndClose_told {id : ReqId} {m : MountRec} {r : FailReason} (hm : s.mount id = some m) (hr : m.resultSent = .none)
    (hf : m.failure = none) (hre : m.reachedMounted = false) (hd : m.driveHeld = true) (hne : r ≠ .revoked) (ho : m.originator ≠ s.addr)
    (hroom : s.lineRoom = true) (hfetch : s.mountPrompt id .fetch = none) (hring : s.mountPrompt id .ring = none) :
    ∃ acct, failAndClose id r s = { s with
        line := (s.queueing (some m.originator) (.result id (.failed r) 0)).line
        mnt := { s.mnt with
          drives := s.mnt.drives.modify m.drive DriveRec.released, mounts := s.mnt.mounts.filter fun x => x.id ≠ id }
        seq := { s.seq with waiting := s.seq.waiting.filter fun w => w ≠ .sourceLocal id }
        prm := { s.prm with postings := s.postingsWithout (some id) }
        acct := acct }
      ∧ ∃ a, acct.spool = s.acct.spool ++ [a] ∧ a.mountId = id ∧ a.outcome = .failed ∧ a.reason = some r ∧ a.charge = 0
        ∧ a.sequence = s.acct.counter := by
  have hclosed : s.mountsClosed m = { s.mnt with
      drives := s.mnt.drives.modify m.drive DriveRec.released, mounts := s.mnt.mounts.filter fun x => x.id ≠ id } := by
    rw [State.mountsClosed, if_pos hd, (mount_spec hm).2]
  have heq := failAndClose_plain hm hr hf hne ho hroom hfetch hring
  rw [hclosed, accountFor_acct] at heq
  obtain ⟨h1, h2, h3, h4, h5⟩ := accountRecord_failed (m := m.failedAs r) (r := r) hre (show some (m.failure.getD r) = some r by rw [hf]; rfl)
    s.acct.counter (s.globalDrive m.drive) s.settings
  exact ⟨_, heq, _, (accountFor_spool ..).1, h5.trans (mount_spec hm).2, h1, h2, h3, h4⟩

/-! ### FETCH -/

/-- The side toward a station (R135). -/
theorem toward_eq (s : State) (a : Nat) : s.toward a = if a < s.addr then .west else .east := rfl

/-- A reel that is HOME is granted (R6). -/
theorem takeOutAnswer_home {slot : Nat} {v : Volser} {id : ReqId} {e : HomeEntry} (h : s.entry slot = some e) (hv : e.volser = v)
    (hst : e.state = .home) : s.takeOutAnswer slot v id = .granted e := by
  simp only [State.takeOutAnswer, h, hv, hst, ne_eq, not_true_eq_false, if_false, if_true]

/-- A reel that is OUT for the same mount is taken again (R6). -/
theorem takeOutAnswer_again {slot : Nat} {v : Volser} {id : ReqId} {e : HomeEntry} (h : s.entry slot = some e) (hv : e.volser = v)
    (hst : e.state = .out) (hid : e.mountId = some id) : s.takeOutAnswer slot v id = .takenAgain := by
  simp only [State.takeOutAnswer, h, hv, hst, hid, ne_eq, not_true_eq_false, if_false, decide_true, Bool.and_self, if_true, reduceCtorEq]

theorem fetchInHand_iff (s : State) (id : ReqId) : s.fetchInHand id = true
    ↔ ∃ o ∈ s.seq.inArm.toList ++ s.seq.queue, o.mountId = some id ∧ ∃ d, o.dst = .mouth d := by
  have hmouth (o : ArmOrder) : o.toMouth = true ↔ ∃ d, o.dst = .mouth d := by
    unfold ArmOrder.toMouth
    cases o.dst <;> simp
  simp only [State.fetchInHand, State.orders, List.any_eq_true, Bool.and_eq_true, decide_eq_true_eq, hmouth, List.mem_append]
  exact exists_congr fun o => and_congr_left fun _ => or_comm

/-- The failure a NOT HERE's reason maps to (R73). -/
theorem failure_eq (r : NotHereReason) : r.failure = match r with
    | .out | .retiring | .retired | .missing | .absent => FailReason.stale
    | .misfiled => .misfiled
    | .unreadable => .unreadable
    | .arm => .arm
    | .noLane => .transit := rfl

theorem failure_ne_revoked (r : NotHereReason) : r.failure ≠ .revoked := by cases r <;> nofun

/-- Settles O44: `onFetch`, and `failAndClose` for the record that a NOT HERE leaves without its reel. -/
theorem fetchAndNotHere : Obligations.FetchAndNotHere := by
  refine ⟨fun s f id v slot dest cls hs h hroom => ?fetch, fun s f i1 i0 v1 v2 v3 v4 v5 v6 r hs h hm hp hb => ?unusable, fun s f id v r hs h => ?notHere⟩
  case fetch =>
    intro side
    have heard {u : State} (hu : onFetch f.src.toNat id v slot dest cls (s.acked f) = u) : exec (.fetchReceived f) s = .next (settle false u) :=
      exec_accepts h rfl nofun hu
    have refuses {r : NotHereReason} (hu : onFetch f.src.toNat id v slot dest cls (s.acked f) = offerTo f.src.toNat (.notHere id v r) (s.acked f)) :
        exec (.fetchReceived f) s = .next ((s.acked f).queueing (some f.src.toNat) (.notHere id v r)) :=
      exec_accepts_ends h rfl nofun (hu.trans (offerTo_plain (s := s.acked f) hroom (by simp [Body.kind]) (by simp [Body.kind])))
        (settled_of_same hs rfl rfl rfl rfl)
    refine ⟨fun hd => refuses (if_pos hd), fun hd hfit => ?_⟩
    have hgo : ¬ (dest = (s.acked f).addr ∨ (s.acked f).fitted ((s.acked f).toward dest) = false) := fun e =>
      e.elim hd fun e => absurd (hfit.symm.trans e) nofun
    refine ⟨fun r hr => refuses ?_, fun e he hv hst hid => ?_, fun e he hv hst hplace => ?_⟩
    · simp only [onFetch, if_neg hgo, show (s.acked f).takeOutAnswer slot v id = .refused r from hr]
    · have hagain : onFetch f.src.toNat id v slot dest cls (s.acked f)
          = if (s.acked f).fetchInHand id then s.acked f else offerTo f.src.toNat (.notHere id v .out) (s.acked f) := by
        simp only [onFetch, if_neg hgo, show (s.acked f).takeOutAnswer slot v id = .takenAgain from takeOutAnswer_again (s := s) he hv hst hid]
      intro inHand
      have hhand := fetchInHand_iff (s.acked f) id
      refine ⟨fun hin => ?_, fun hin => refuses (hagain.trans (if_neg fun e => hin (hhand.mp e)))⟩
      exact exec_accepts_ends h rfl nofun (hagain.trans (if_pos (hhand.mpr hin))) (settled_of_same hs rfl rfl rfl rfl)
    · intro o a
      refine heard ?_
      have hgrant : (s.acked f).takeOutAnswer slot v id = .granted e := takeOutAnswer_home (s := s) he hv hst
      simp only [onFetch, if_neg hgo, hgrant, takeOut]
      exact (offerStaged_room (s := setEntry slot { e with state := .out, mountId := some id } (s.acked f)) hplace ..).trans rfl
  case unusable =>
    refine runEvent_ends (f := hear .notHere f) (hears_resetHeld h) ?_ (settled_of_same hs rfl rfl rfl rfl)
    rw [hear_unusable h hm hb rfl nofun, hp]
    exact forgetVolser_eq (volserOf v1 v2 v3 v4 v5 v6) (s.acked f)
  case notHere =>
    refine ⟨fun hn => ?_, fun m hm hst hh ho => ?_⟩
    · refine exec_accepts_ends h rfl nofun ?_ ?_
      · show onNotHere f.src.toNat id v r (s.acked f) = _
        unfold onNotHere
        dsimp only
        split
        next m hm => exact if_neg fun ⟨h1, h2⟩ => (hn m hm).elim (fun e => e h1) fun e => e h2
        next => rfl
      · rw [forgetVolser_eq]
        exact settled_of_same hs rfl rfl rfl rfl
    · have hclose : onNotHere f.src.toNat id v r (s.acked f) = failAndClose id r.failure (forgetVolser v (s.acked f)) := by
        simp only [onNotHere, show (forgetVolser v (s.acked f)).mount id = some m from hm, hst, hh, and_self, if_true]
      rw [forgetVolser_eq] at hclose
      obtain ⟨line, seq, prm, acct, heq, hspool⟩ := failAndClose_frame (r := r.failure) (s := { s.acked f with dir := { s.dir with
        learnt := s.dir.learnt.filter fun e => e.2.volser ≠ v } }) hm ho
      replace hclose := hclose.trans heq
      refine ⟨_, exec_accepts h rfl nofun hclose, ?_, settle_dir .., ?_, settle_host .., settle_lane .., settle_wear .., fun hr hf hre hd hroom hpr => ?_⟩
      · rw [settle_mnt]
        exact mountsClosed_mounts (s := s) hm
      · rw [settle_acct]
        exact hspool
      · intro why
        have hnone (k : PromptKind) : (s.acked f).mountPrompt id k = none := by
          rw [mountPrompt_none_iff, show (s.acked f).prm.prompts = [] from hpr]
          exact fun p hp => absurd hp List.not_mem_nil
        obtain ⟨acct', heq', hspooled⟩ := failAndClose_told (s := { s.acked f with dir := { s.dir with
          learnt := s.dir.learnt.filter fun e => e.2.volser ≠ v } }) hm hr hf hre hd (failure_ne_revoked r) ho hroom (hnone _) (hnone _)
        rw [show why = r.failure from (failure_eq r).symm, heq.symm.trans heq', settle_mnt, settle_line, settle_acct, settle_neg]
        exact ⟨rfl, rfl, hspooled, rfl⟩

end
end Sys2Proof.Machine


/-! The Wear Monitor's hand-over: the pass, the window tests, the retirement decision and the start of a retirement. -/

namespace Sys2Proof.Machine

-- One proof at a time: proofs that wait for each other on threads of their own would reserve more stack than the check allows.
set_option Elab.async false

section
variable {s t u : State}

/-! ### What a change of one wear record leaves -/

/-- `u` is `s` with the wear record of one slot as given, and notices posted. -/
def WornTo (s u : State) (slot : Nat) (y : WearRec) (n : List Notice) : Prop :=
  ∃ x, u = { s with wear := x } ∧ u.wearOf slot = y ∧ (∀ k, k ≠ slot → u.wearOf k = s.wearOf k)
    ∧ x.handovers = s.wear.handovers ∧ x.notices = s.wear.notices ++ n

theorem wornTo_refl (s : State) (slot : Nat) : WornTo s s slot (s.wearOf slot) [] :=
  ⟨s.wear, rfl, rfl, fun _ _ => rfl, rfl, (List.append_nil _).symm⟩

theorem WornTo.trans {slot : Nat} {y z : WearRec} {m n : List Notice} (h : WornTo s t slot y m) (h' : WornTo t u slot z n) :
    WornTo s u slot z (m ++ n) := by
  obtain ⟨x, rfl, -, h2, h3, h4⟩ := h
  obtain ⟨x', rfl, h1', h2', h3', h4'⟩ := h'
  refine ⟨x', rfl, h1', fun k hk => (h2' k hk).trans (h2 k hk), h3'.trans h3, h4'.trans ?_⟩
  rw [← List.append_assoc, ← h4]

theorem wornTo_setWear (slot : Nat) (w : WearRec) (s : State) : WornTo s (setWear slot w s) slot w [] :=
  ⟨_, rfl, tableGet_set_same .., fun _ hk => congrArg (·.getD WearRec.clear) (tableGet_set_other _ _ _ hk), rfl, (List.append_nil _).symm⟩

theorem wornTo_wearNotice (slot : Nat) (v : Volser) (e : WearEvent) (c : Option RetireCause) (s : State) :
    WornTo s (wearNotice slot v e c s) slot (s.wearOf slot) [.wear slot v e c (s.wearOf slot).lifetime (s.wearOf slot).streak] :=
  ⟨_, rfl, rfl, fun _ _ => rfl, rfl, rfl⟩

theorem WornTo.wearOf {slot : Nat} {y : WearRec} {n : List Notice} (h : WornTo s u slot y n) : u.wearOf slot = y := by
  obtain ⟨-, -, h1, -⟩ := h
  exact h1

theorem WornTo.settings {slot : Nat} {y : WearRec} {n : List Notice} (h : WornTo s u slot y n) : u.settings = s.settings := by
  obtain ⟨x, rfl, -⟩ := h
  rfl

/-! ### The window test and the pass -/

/-- A wear record as its window, when full, has been dealt with (R174). -/
def WearRec.windowTested (c : Settings) (w : WearRec) : WearRec := if w.passes < c.window then w else w.tested c.threshold

/-- The SUSPECT notice of a full window's test (R174, R179). -/
def WearRec.suspicions (c : Settings) (slot : Nat) (v : Volser) (w : WearRec) : List Notice :=
  if ¬ w.passes < c.window ∧ w.suspect c.threshold = true then
    [.wear slot v (.suspect w.blocks w.recoveries) none (w.tested c.threshold).lifetime (w.tested c.threshold).streak] else []

theorem wornTo_testWindow (slot : Nat) (v : Volser) (s : State) :
    WornTo s (testWindow slot v s) slot ((s.wearOf slot).windowTested s.settings) ((s.wearOf slot).suspicions s.settings slot v) := by
  unfold testWindow WearRec.windowTested WearRec.suspicions
  dsimp only
  by_cases hf : (s.wearOf slot).passes < s.settings.window
  · rw [if_pos hf, if_pos hf, if_neg fun h => h.1 hf]
    exact wornTo_refl s slot
  · rw [if_neg hf, if_neg hf]
    have hset := wornTo_setWear slot ((s.wearOf slot).tested s.settings.threshold) s
    by_cases hsus : (s.wearOf slot).suspect s.settings.threshold = true
    · rw [if_pos hsus, if_pos ⟨hf, hsus⟩]
      have hnote := hset.trans (wornTo_wearNotice slot v (.suspect (s.wearOf slot).blocks (s.wearOf slot).recoveries) none _)
      rw [hset.wearOf] at hnote
      exact hnote
    · rw [if_neg hsus, if_neg fun h => hsus h.2]
      exact hset

/-- A pass: the window left full is tested, the counts are added, and without a hard error the window is tested again (R173). -/
theorem wornTo_wearPass (slot : Nat) (v : Volser) (c : Counts) (s : State) :
    let x := ((s.wearOf slot).windowTested s.settings).accumulated c
    WornTo s (wearPass slot v c s) slot (if c.hardError then x else x.windowTested s.settings)
      ((s.wearOf slot).suspicions s.settings slot v ++ if c.hardError then [] else x.suspicions s.settings slot v) := by
  intro x
  have htest := wornTo_testWindow slot v s
  have hadd := htest.trans (wornTo_setWear slot (((testWindow slot v s).wearOf slot).accumulated c) _)
  rw [htest.wearOf] at hadd
  unfold wearPass
  dsimp only
  rw [htest.wearOf]
  cases hc : c.hardError with
  | true =>
    rw [if_pos rfl, if_pos rfl, if_pos rfl]
    exact hadd
  | false =>
    have hagain := hadd.trans (wornTo_testWindow slot v _)
    rw [hadd.wearOf, hadd.settings, List.append_nil] at hagain
    exact hagain

/-! ### The hand-over -/

/-- A wear record once a hand-over's pass, if it has counts, has been added (R173). -/
def WearRec.passed (c : Settings) (counts : Option Counts) (w : WearRec) : WearRec :=
  match counts with
  | none => w
  | some k => if k.hardError then (w.windowTested c).accumulated k else ((w.windowTested c).accumulated k).windowTested c

/-- The notices of a hand-over's pass (R174). -/
def WearRec.passNotices (c : Settings) (slot : Nat) (v : Volser) (counts : Option Counts) (w : WearRec) : List Notice :=
  match counts with
  | none => []
  | some k => w.suspicions c slot v ++ if k.hardError then [] else ((w.windowTested c).accumulated k).suspicions c slot v

theorem windowTested_stage (c : Settings) (w : WearRec) : (w.windowTested c).stage = w.stage := by
  unfold WearRec.windowTested
  split <;> rfl

/-- A pass moves figures only (R173, R174). -/
theorem passed_stage (c : Settings) (k : Option Counts) (w : WearRec) : (w.passed c k).stage = w.stage := by
  unfold WearRec.passed
  split
  · rfl
  · split
    · exact windowTested_stage c w
    · exact (windowTested_stage c _).trans (windowTested_stage c w)

/-- A hand-over for a slot with a reel: its pass, then the decision (R172 to R175). -/
theorem takePass_decided (h : Handover) (s : State) :
    let hard := (h.counts.map (·.hardError)).getD false
    let r := ((s.wearOf h.slot).passed s.settings h.counts).decided hard s.settings
    ∃ u, WornTo s u h.slot r ((s.wearOf h.slot).passNotices s.settings h.slot h.volser h.counts)
      ∧ takePass h s = if r.stage = .due then startRetirement h.slot u else u := by
  intro hard r
  have decide {v : State} {n : List Notice} (hv : WornTo s v h.slot ((s.wearOf h.slot).passed s.settings h.counts) n) :
      WornTo s (setWear h.slot ((v.wearOf h.slot).decided hard v.settings) v) h.slot r n := by
    have := hv.trans (wornTo_setWear h.slot ((v.wearOf h.slot).decided hard v.settings) v)
    rw [List.append_nil, hv.wearOf, hv.settings] at this
    rw [hv.wearOf, hv.settings]
    exact this
  have pass : ∃ v, WornTo s v h.slot ((s.wearOf h.slot).passed s.settings h.counts) ((s.wearOf h.slot).passNotices s.settings h.slot h.volser h.counts)
      ∧ takePass h s = (let w := setWear h.slot ((v.wearOf h.slot).decided ((h.counts.map (·.hardError)).getD false) v.settings) v
        if (w.wearOf h.slot).stage = .due then startRetirement h.slot w else w) := by
    unfold takePass WearRec.passed WearRec.passNotices
    cases hc : h.counts with
    | none => exact ⟨s, wornTo_refl s h.slot, rfl⟩
    | some c => exact ⟨_, wornTo_wearPass h.slot h.volser c s, rfl⟩
  obtain ⟨v, hv, heq⟩ := pass
  refine ⟨_, decide hv, heq.trans ?_⟩
  dsimp only
  rw [(decide hv).wearOf]

/-- A record due for retirement, its slot HOME, is ordered out: the entry is RETIRING, and the CELL pick queued, with room for it,
which asks for a position (R176). -/
theorem startRetirement_orders {slot : Nat} {e : HomeEntry} (he : s.entry slot = some e) (hst : e.state = .home) (hroom : s.orderRoom = true) :
    ∃ x, startRetirement slot s = askCell (.order s.nextOrder) { s with
        wear := x
        dir := { s.dir with catalog := tablePut s.dir.catalog slot { e with state := .retiring } }
        seq := { s.seq with
          counter := (s.nextOrder + 1) % 256
          queue := s.seq.queue ++ [{ ArmOrder.offer .cell false (.slot slot) .cell .wear with
            number := s.nextOrder, estimate := s.legEstimate (.slot slot) .cell, volser := some e.volser, cellUse := .retire }] } }
      ∧ WornTo s { s with wear := x } slot { s.wearOf slot with stage := .ordered }
        [.wear slot e.volser .retiring (s.wearOf slot).cause (s.wearOf slot).lifetime (s.wearOf slot).streak] := by
  have hgrant : s.retireGranted slot = some e := by rw [State.retireGranted, he]; exact if_pos hst
  have hset := wornTo_setWear slot { s.wearOf slot with stage := .ordered } s
  have hworn := hset.trans (wornTo_wearNotice slot e.volser .retiring (s.wearOf slot).cause _)
  rw [hset.wearOf] at hworn
  have hset' := wornTo_setWear slot { s.wearOf slot with stage := .ordered } (setEntry slot { e with state := .retiring } s)
  have horder : startRetirement slot s = offerStaged (retirePick slot e.volser) none none .none
      (wearNotice slot e.volser .retiring (s.wearOf slot).cause (setWear slot { s.wearOf slot with stage := .ordered }
        (setEntry slot { e with state := .retiring } s))) := by
    simp only [startRetirement, hgrant]
    rw [show (setEntry slot { e with state := .retiring } s).wearOf slot = s.wearOf slot from rfl, hset'.wearOf]
  refine ⟨_, horder.trans ((offerStaged_room ?_ ..).trans rfl), hworn⟩
  exact hroom

/-- The retirement decision leaves a record that is already being retired, or has no cause (R175). -/
theorem decided_eq (w : WearRec) (hard : Bool) (c : Settings) : w.decided hard c
    = if w.stage = .none ∧ w.dueCause hard c ≠ none then { w with stage := .due, cause := w.dueCause hard c } else w := by
  unfold WearRec.decided
  by_cases h : w.stage = .none
  · rw [if_pos h]
    cases hc : w.dueCause hard c with
    | none => exact (if_neg fun h => h.2 rfl).symm
    | some k => exact (if_pos ⟨h, nofun⟩).symm
  · rw [if_neg h, if_neg fun h' => h h'.1]

/-- Settles O59: `takePass` and `startRetirement` on the oldest hand-over. -/
theorem wearHandOver : Obligations.WearHandOver := by
  refine ⟨fun s hs hp hw => ?_, fun s h rest hs hp hw he => ?_, fun s h rest e hs hp hw he => ?_⟩
  · exact runEvent_ends (f := wearStep) hp (by rw [wearStep, hw]) hs
  · refine runEvent_ends (f := wearStep) hp ?_ (settled_of_same hs rfl rfl rfl rfl)
    have hnone : State.entry { s with wear := { s.wear with handovers := rest } } h.slot = none := he
    simp only [wearStep, hw, takeHandover, hnone]
    rfl
  · intro w full bad tested told added after cause r monitor
    have hbad (x : WearRec) : bad x ↔ x.suspect s.settings.threshold = true := by
      simp only [bad, WearRec.suspect, Bool.and_eq_true, decide_eq_true_eq]
    have htested (x : WearRec) : tested x = x.windowTested s.settings := by
      by_cases hf : full x
      · refine (if_pos hf).trans (Eq.trans ?_ (if_neg (not_lt.mpr hf)).symm)
        simp only [WearRec.tested, hbad]
        rfl
      · exact (if_neg hf).trans (if_pos (not_le.mp hf)).symm
    have htold (x : WearRec) : told x = x.suspicions s.settings h.slot h.volser := by
      have hiff : (full x ∧ bad x) ↔ (¬ x.passes < s.settings.window ∧ x.suspect s.settings.threshold = true) := and_congr not_lt.symm (hbad x)
      by_cases hf : full x ∧ bad x
      · refine (if_pos hf).trans (Eq.trans ?_ (if_pos (hiff.mp hf)).symm)
        rw [htested, WearRec.windowTested, if_neg (not_lt.mpr hf.1)]
      · exact (if_neg hf).trans (if_neg (mt hiff.mpr hf)).symm
    have hafter : after = (w.passed s.settings h.counts, w.passNotices s.settings h.slot h.volser h.counts) := by
      simp only [after, WearRec.passed, WearRec.passNotices]
      cases h.counts with
      | none => rfl
      | some c =>
        simp only [htold, htested]
        cases c.hardError
        · rfl
        · exact congrArg (Prod.mk _) (List.append_nil _).symm
    have hcause : cause = (w.passed s.settings h.counts).dueCause ((h.counts.map (·.hardError)).getD false) s.settings := by
      have hhard : (h.counts.map (·.hardError) = some true) ↔ (h.counts.map (·.hardError)).getD false = true := by
        cases h.counts with
        | none => simp
        | some c => simp
      simp only [cause, hafter, WearRec.dueCause, hhard]
    have hr : r = (w.passed s.settings h.counts).decided ((h.counts.map (·.hardError)).getD false) s.settings := by
      rw [decided_eq, passed_stage, ← hcause]
      simp only [r, hafter]
    obtain ⟨u, hu, htake⟩ := takePass_decided h { s with wear := { s.wear with handovers := rest } }
    have hstep : wearStep s = if r.stage = .due then startRetirement h.slot u else u := by
      rw [hr]
      simp only [wearStep, hw]
      exact (if_pos (show (State.entry { s with wear := { s.wear with handovers := rest } } h.slot).isSome = true by
        rw [show State.entry { s with wear := { s.wear with handovers := rest } } h.slot = some e from he]; rfl)).trans htake
    have hue : u.wearOf h.slot = r := hu.wearOf.trans hr.symm
    have hnotices : after.2 = w.passNotices s.settings h.slot h.volser h.counts := by rw [hafter]
    obtain ⟨x, rfl, -, hother, hrest, hnote⟩ := hu
    refine ⟨fun hno => ⟨x, ⟨hue, hother, hrest, hnote.trans (congrArg (s.wear.notices ++ ·) hnotices.symm)⟩, ?_⟩, fun hdue hhome hroom => ?_⟩
    · refine runEvent_ends (f := wearStep) hp (hstep.trans ?_) (settled_of_same hs rfl rfl rfl rfl)
      by_cases hd : r.stage = .due
      · rw [if_pos hd]
        have hgrant : State.retireGranted { s with wear := x } h.slot = none := by
          rw [State.retireGranted, show State.entry { s with wear := x } h.slot = some e from he]
          exact if_neg (hno.resolve_left (not_not.mpr hd))
        simp only [startRetirement, hgrant]
      · rw [if_neg hd]
    · obtain ⟨y, horders, hworn⟩ := startRetirement_orders (s := { s with wear := x }) he hhome hroom
      rw [show State.wearOf { s with wear := x } h.slot = r from hue] at hworn
      obtain ⟨y', heq, h1, h2, h3, h4⟩ := hworn
      have hy : y = y' := congrArg State.wear heq
      subst hy
      refine ⟨y, ⟨h1, fun k hk => (h2 k hk).trans (hother k hk), h3.trans hrest, ?_⟩, runEvent_settles hp (hstep.trans ((if_pos hdue).trans horders))⟩
      rw [h4, hnotices, ← List.append_assoc]
      exact congrArg (· ++ _) hnote

end
end Sys2Proof.Machine


/-! The label search. -/

namespace Sys2Proof.Machine

-- One proof at a time: proofs that wait for each other on threads of their own would reserve more stack than the check allows.
set_option Elab.async false

/-! ### The candidates of a reading -/

/-- The candidates are the eight rotations in the two directions (R128). -/
theorem mem_candidates (h g : Hint) : g ∈ candidates h ↔ g.rotation < 8 := by
  obtain ⟨c, back⟩ := g
  have hall (r : Bool) : (⟨c, back⟩ : Hint) ∈ [0, 1, 2, 3, 4, 5, 6, 7].map (fun i => (⟨(h.rotation + i) % 8, r⟩ : Hint)) ↔ c < 8 ∧ r = back := by
    simp only [List.mem_map, List.mem_cons, List.not_mem_nil, or_false, Hint.mk.injEq]
    constructor
    · rintro ⟨i, -, hi, rfl⟩
      exact ⟨by omega, rfl⟩
    · rintro ⟨hc, rfl⟩
      exact ⟨(c + 8 - h.rotation % 8) % 8, by omega, by omega, rfl⟩
  rw [candidates, List.mem_append, hall, hall]
  cases h.reverse <;> cases back <;> simp

/-- The label a reel of a volser carries (R127). -/
def labelOf (v : Volser) : List Nat := [v.s1, v.s2, v.s3, v.s4, v.s5, v.s6, v.check1, v.check2]

/-- What is read of a label from a rotation, in a direction (R127, R128). -/
def readFrom (label : List Nat) (c : Nat) (back : Bool) : List Nat :=
  (List.range 8).map fun j => label.getD (if back then (c + 8 - j) % 8 else (j + 8 - c) % 8) 0

/-- The candidate of the rotation and direction a label was read in spells the label (R128). -/
theorem candidateSymbol_readFrom (label : List Nat) {c : Nat} (hc : c < 8) (back : Bool) {k : Nat} (hk : k < 8) :
    candidateSymbol (readFrom label c back) ⟨c, back⟩ k = label.getD k 0 := by
  have hat {i : Nat} (hi : i < 8) : (readFrom label c back).getD i 0 = label.getD (if back then (c + 8 - i) % 8 else (i + 8 - c) % 8) 0 := by
    simp [readFrom, List.getD_eq_getElem?_getD, hi]
  unfold candidateSymbol
  cases back with
  | true =>
    rw [if_pos rfl, hat (Nat.mod_lt _ (by decide)), if_pos rfl]
    congr 1
    dsimp only
    omega
  | false =>
    rw [if_neg nofun, hat (Nat.mod_lt _ (by decide)), if_neg nofun]
    congr 1
    dsimp only
    omega

theorem candidateVolser_readFrom (v : Volser) {c : Nat} (hc : c < 8) (back : Bool) :
    candidateVolser (readFrom (labelOf v) c back) ⟨c, back⟩ = v := by
  have h {k : Nat} (hk : k < 8) := candidateSymbol_readFrom (labelOf v) hc back hk
  rw [candidateVolser, h (by decide), h (by decide), h (by decide), h (by decide), h (by decide), h (by decide)]
  rfl

/-- The label of a well-formed volser is a valid candidate (R128). -/
theorem candidateValid_readFrom {v : Volser} (hv : v.wellFormed = true) {c : Nat} (hc : c < 8) (back : Bool) :
    candidateValid (readFrom (labelOf v) c back) ⟨c, back⟩ = true := by
  have h6 := candidateSymbol_readFrom (labelOf v) hc back (k := 6) (by decide)
  have h7 := candidateSymbol_readFrom (labelOf v) hc back (k := 7) (by decide)
  rw [candidateValid, candidateVolser_readFrom v hc back, hv, h6, h7]
  simp [labelOf]

/-- A reading is UNREADABLE exactly when no candidate of it is valid (R129). -/
theorem labelSearch_unreadable_iff (expected : Option Volser) (h : Hint) (reading : List Nat) :
    labelSearch expected h reading = .unreadable ↔ (candidates h).filter (candidateValid reading) = [] := by
  unfold labelSearch
  generalize (candidates h).filter (candidateValid reading) = valid
  cases expected with
  | none => cases valid <;> simp
  | some v =>
    cases valid with
    | nil => simp
    | cons g rest =>
      dsimp only
      split <;> simp

/-- Settles O54: the candidate a label was read from spells it, and the search goes through all sixteen. -/
theorem labelSearchFinds : Obligations.LabelSearchFinds := by
  refine ⟨fun v h c back hv hc => ?_, fun expected h reading => ?_⟩
  · intro label reading
    have hreading : reading = readFrom (labelOf v) c back := rfl
    have hmem : (⟨c, back⟩ : Hint) ∈ (candidates h).filter (candidateValid reading) :=
      List.mem_filter.mpr ⟨(mem_candidates h _).mpr hc, by rw [hreading]; exact candidateValid_readFrom hv hc back⟩
    refine ⟨?_, ?_⟩
    · cases hf : ((candidates h).filter (candidateValid reading)).find? fun g => candidateVolser reading g == v with
      | none =>
        have := List.find?_eq_none.mp hf _ hmem
        rw [hreading, candidateVolser_readFrom v hc back, beq_self_eq_true] at this
        exact absurd rfl this
      | some g =>
        have hfound := List.find?_some hf
        refine ⟨g, ?_, eq_of_beq hfound, (mem_candidates h g).mp (List.mem_filter.mp (List.mem_of_find?_eq_some hf)).1⟩
        simp only [labelSearch, hf]
    · cases hl : (candidates h).filter (candidateValid reading) with
      | nil =>
        rw [hl] at hmem
        cases hmem
      | cons g rest => exact ⟨candidateVolser reading g, g, by simp only [labelSearch, hl]⟩
  · rw [labelSearch_unreadable_iff, List.filter_eq_nil_iff]
    refine ⟨fun hn c back hc => ?_, fun hn g hg => ?_⟩
    · exact Bool.eq_false_iff.mpr (hn _ ((mem_candidates h _).mpr hc))
    · exact Bool.eq_false_iff.mp (hn g.rotation g.reverse ((mem_candidates h g).mp hg))

end Sys2Proof.Machine


/-! The bytes of a frame. -/

namespace Sys2Proof.Machine

-- One proof at a time: proofs that wait for each other on threads of their own would reserve more stack than the check allows.
set_option Elab.async false

/-! ### The fields of a payload, written and read -/

theorem toNat_byteOf {n : Nat} (h : n ≤ 255) : (byteOf n).toNat = n := by
  rw [byteOf, BitVec.toNat_ofNat]
  omega

theorem num16_byteOf {n : Nat} (h : n ≤ 65535) : num16 (byteOf (n / 256)) (byteOf n) = n := by
  simp only [num16, byteOf, BitVec.toNat_ofNat]
  omega

theorem num32_byteOf {n : Nat} (h : n ≤ Config.top32) :
    num32 (byteOf (n / 16777216)) (byteOf (n / 65536)) (byteOf (n / 256)) (byteOf n) = n := by
  have htop : Config.top32 = 4294967295 := rfl
  simp only [num32, byteOf, BitVec.toNat_ofNat]
  omega

theorem flagOf_flagByte (b : Bool) : flagOf (flagByte b) = some b := by
  cases b <;> rfl

theorem flagByte_ne_zero (b : Bool) : (flagByte b != 0) = b := by
  cases b <;> rfl

theorem idOf_byteOf {id : ReqId} (h : id.fits = true) : idOf (byteOf id.station) (byteOf id.seq) = id := by
  simp only [ReqId.fits, Bool.and_eq_true, decide_eq_true_eq] at h
  obtain ⟨hstation, hseq⟩ := h
  rw [idOf, toNat_byteOf (by omega), toNat_byteOf hseq]

theorem toNat_station {id : ReqId} (h : id.fits = true) : (byteOf id.station).toNat ≤ 15 := by
  simp only [ReqId.fits, Bool.and_eq_true, decide_eq_true_eq] at h
  obtain ⟨hstation, -⟩ := h
  rwa [toNat_byteOf (by omega)]

theorem volserOf_byteOf {v : Volser} (h : v.wellFormed = true) :
    volserOf (byteOf v.s1) (byteOf v.s2) (byteOf v.s3) (byteOf v.s4) (byteOf v.s5) (byteOf v.s6) = v := by
  simp only [Volser.wellFormed, Bool.and_eq_true, decide_eq_true_eq] at h
  obtain ⟨⟨⟨⟨⟨h1, h2⟩, h3⟩, h4⟩, h5⟩, h6⟩ := h
  rw [volserOf, toNat_byteOf (by omega), toNat_byteOf (by omega), toNat_byteOf (by omega), toNat_byteOf (by omega),
    toNat_byteOf (by omega), toNat_byteOf (by omega)]

theorem num16_slot {n : Nat} (h : slotFits n = true) : num16 (byteOf (n / 256)) (byteOf n) = n := by
  have hslots : Config.slots = 4096 := rfl
  exact num16_byteOf (by have := of_decide_eq_true h; omega)

theorem ofCode_state (r : ReelState) : ReelState.ofCode (byteOf r.code).toNat = some r := by
  cases r <;> rfl

theorem ofCode_decline (r : DeclineReason) : DeclineReason.ofCode (byteOf r.code).toNat = some r := by
  cases r <;> rfl

theorem ofCode_notHere (r : NotHereReason) : NotHereReason.ofCode (byteOf r.code).toNat = some r := by
  cases r <;> rfl

theorem ofCode_prompt (k : PromptKind) : PromptKind.ofCode (byteOf k.code).toNat = some k := by
  cases k <;> rfl

theorem ofCode_side (d : Side) : Side.ofCode (byteOf d.code).toNat = some d := by
  cases d <;> rfl

theorem ofCodes_result (k : ResultKind) : ResultKind.ofCodes (byteOf k.codes.1).toNat (byteOf k.codes.2).toNat = some k := by
  rcases k with _ | r | _ | _
  case failed => cases r <;> rfl
  all_goals rfl

theorem specOf_bytes {spec : DriveSpec} (h : (match spec with | .drive g => decide (g ≤ 127) | .group g => decide (g ≤ 15)) = true) :
    ∃ form n, spec.bytes = [form, n] ∧ specOf form n = some spec := by
  cases spec with
  | drive g =>
    have hg : g ≤ 127 := of_decide_eq_true h
    exact ⟨1, byteOf g, rfl, by simp [specOf, toNat_byteOf (show g ≤ 255 by omega), hg]⟩
  | group g =>
    have hg : g ≤ 15 := of_decide_eq_true h
    exact ⟨2, byteOf g, rfl, by simp [specOf, toNat_byteOf (show g ≤ 255 by omega), hg]⟩

/-- The station field of a location, read back: a station, or 255 for SHELF (R46). -/
theorem stationByte_read {st : Option Nat} (h : (match st with | some a => decide (a ≤ 15) | none => true) = true) :
    (decide ((stationByte st).toNat ≤ 15) || stationByte st == 255) = true
      ∧ (if stationByte st == 255 then none else some (stationByte st).toNat) = st := by
  cases st with
  | none => exact ⟨rfl, rfl⟩
  | some a =>
    have ha : a ≤ 15 := of_decide_eq_true h
    have hnat : (stationByte (some a)).toNat = a := toNat_byteOf (by omega)
    have hne : (stationByte (some a) == 255) = false := by
      rw [beq_eq_false_iff_ne]
      intro heq
      rw [heq] at hnat
      exact absurd (show (255 : Byte).toNat = 255 from rfl) (by omega)
    rw [hnat, hne]
    exact ⟨by simp [ha], rfl⟩

/-- The tail that OFFER and AWARD share, read back. -/
theorem termsOf_tail {t : RequestTerms} (h : Body.fits.termsFit t = true) : termsOf t.volser t.tail = some t := by
  simp only [Body.fits.termsFit, Bool.and_eq_true, decide_eq_true_eq] at h
  obtain ⟨⟨⟨⟨⟨hv, hc⟩, ha⟩, hst⟩, hslot⟩, hpool⟩ := h
  obtain ⟨hin, hread⟩ := stationByte_read hst
  simp only [RequestTerms.tail, bytes16, List.cons_append, List.nil_append, termsOf, flagOf_flagByte, num16_slot hslot,
    toNat_byteOf (show t.cls ≤ 255 by omega), toNat_byteOf ha, toNat_byteOf (show t.loc.pool ≤ 255 by omega)]
  rw [hin, hread, if_pos (by simp [hv, hc, hslot, hpool])]

/-- The three bits of a DEPOSIT's flags byte (R142). -/
theorem flagBits : ∀ ring present hard : Bool,
    (byteOf ((if ring then 1 else 0) + if present then 2 + (if hard then 4 else 0) else 0)).getLsbD 0 = ring
      ∧ (byteOf ((if ring then 1 else 0) + if present then 2 + (if hard then 4 else 0) else 0)).getLsbD 1 = present
      ∧ (present = true → (byteOf ((if ring then 1 else 0) + if present then 2 + (if hard then 4 else 0) else 0)).getLsbD 2 = hard) := by
  decide

/-- The counts of a DEPOSIT and its flags byte, read back (R142). -/
theorem countsOf_bytes {r : Routing} (h : (match r.counts with | none => true | some c => c.fits) = true) :
    ∃ r3 r2 r1 r0 w3 w2 w1 w0 c1 c0, countBytes r.counts = [r3, r2, r1, r0, w3, w2, w1, w0, c1, c0]
      ∧ (byteOf r.flags).getLsbD 0 = r.ring
      ∧ countsOf ((byteOf r.flags).getLsbD 1) ((byteOf r.flags).getLsbD 2) r3 r2 r1 r0 w3 w2 w1 w0 c1 c0 = r.counts := by
  obtain ⟨v, id, pu, de, ring, pool, hops, counts⟩ := r
  cases counts with
  | none =>
    obtain ⟨hring, hpresent, -⟩ := flagBits ring false false
    refine ⟨_, _, _, _, _, _, _, _, _, _, rfl, hring, ?_⟩
    rw [countsOf]
    exact if_neg (Bool.eq_false_iff.mp hpresent)
  | some c =>
    obtain ⟨br, bw, re, hard⟩ := c
    simp only [Counts.fits, Bool.and_eq_true, decide_eq_true_eq] at h
    obtain ⟨⟨hbr, hbw⟩, hre⟩ := h
    obtain ⟨hring, hpresent, hhard⟩ := flagBits ring true hard
    have hread (present : Bool) (hp : present = true) (err : Bool) (he : err = hard) :
        countsOf present err (byteOf (br / 16777216)) (byteOf (br / 65536)) (byteOf (br / 256)) (byteOf br)
          (byteOf (bw / 16777216)) (byteOf (bw / 65536)) (byteOf (bw / 256)) (byteOf bw) (byteOf (re / 256)) (byteOf re)
          = some ⟨br, bw, re, hard⟩ := by
      subst hp he
      rw [countsOf, if_pos rfl, num32_byteOf hbr, num32_byteOf hbw, num16_byteOf hre]
    exact ⟨_, _, _, _, _, _, _, _, _, _, rfl, hring, hread _ hpresent _ (hhard rfl)⟩

/-- A DEPOSIT's routing record, read back (R142, R143). -/
theorem depositOf_payload {r : Routing} (h : (Body.deposit r).fits = true) : depositOf (Body.deposit r).payload = some r := by
  simp only [Body.fits, Bool.and_eq_true, Bool.or_eq_true, beq_iff_eq, decide_eq_true_eq] at h
  obtain ⟨⟨⟨⟨⟨⟨hid, hv⟩, hpu⟩, hde⟩, hpool⟩, hhops⟩, hcounts⟩ := h
  obtain ⟨r3, r2, r1, r0, w3, w2, w1, w0, c1, c0, hbytes, hring, hread⟩ := countsOf_bytes hcounts
  obtain ⟨d, hd, hd15⟩ : ∃ d, r.destination = some d ∧ d ≤ 15 := by
    cases hdest : r.destination with
    | none =>
      rw [hdest] at hde
      cases hde
    | some d =>
      rw [hdest] at hde
      exact ⟨d, rfl, of_decide_eq_true hde⟩
  have hpurpose : (byteOf r.purpose.code == 1 || byteOf r.purpose.code == 2) = true
      ∧ RoutePurpose.ofCode (byteOf r.purpose.code).toNat = r.purpose := by
    rcases hpu with hp | hp <;> rw [hp] <;> exact ⟨rfl, rfl⟩
  obtain ⟨hcode, hof⟩ := hpurpose
  simp only [Body.payload, ReqId.bytes, Volser.bytes, List.cons_append, List.nil_append, hbytes, depositOf, hd, stationByte]
  rw [idOf_byteOf hid, volserOf_byteOf hv, hcode, hof, hring, hread, toNat_byteOf (show d ≤ 255 by omega),
    toNat_byteOf (show r.pool ≤ 255 by omega), toNat_byteOf (show r.hops ≤ 255 by omega), if_pos (by simp [hv, hd15, hpool, hhops])]
  rw [← hd]

/-! ### A payload, written and read -/

theorem payload_length (b : Body) : b.payload.length = b.kind.length := by
  cases b with
  | offer id t spec => cases spec <;> rfl
  | deposit r =>
    obtain ⟨v, id, pu, de, ring, pool, hops, counts⟩ := r
    cases counts <;> rfl
  | _ => rfl

/-- What a body's payload carries is that body again (R46, R142, R168). -/
theorem bodyOf_payload {b : Body} (h : b.fits = true) : bodyOf b.kind b.payload = some b := by
  cases b with
  | hello f =>
    simp only [Body.fits, Bool.and_eq_true, decide_eq_true_eq] at h
    obtain ⟨⟨⟨⟨⟨hup, hfree⟩, hwc⟩, hec⟩, hwo⟩, heo⟩ := h
    simp only [Body.payload, bytes32, List.cons_append, List.nil_append, Body.kind, bodyOf, helloOf, num32_byteOf hup, toNat_byteOf,
      flagByte_ne_zero, hfree, hwc, hec, hwo, heo, Option.map_some]
  | deposit r =>
    rw [Body.kind, bodyOf, depositOf_payload h]
    rfl
  | locate id v =>
    simp only [Body.fits, Bool.and_eq_true] at h
    obtain ⟨hid, hv⟩ := h
    simp only [Body.payload, ReqId.bytes, Volser.bytes, List.cons_append, List.nil_append, Body.kind, bodyOf, readLocate,
      volserOf_byteOf hv, idOf_byteOf hid, hv, if_true]
  | holding id v slot pool ring state =>
    simp only [Body.fits, Bool.and_eq_true, decide_eq_true_eq] at h
    obtain ⟨⟨⟨hid, hv⟩, hslot⟩, hpool⟩ := h
    simp only [Body.payload, ReqId.bytes, Volser.bytes, bytes16, List.cons_append, List.nil_append, Body.kind, bodyOf, readHolding,
      volserOf_byteOf hv, idOf_byteOf hid, num16_slot hslot, toNat_byteOf (show pool ≤ 255 by omega), flagOf_flagByte, ofCode_state]
    rw [if_pos (by simp [hv, hslot, hpool])]
  | offer id t spec =>
    simp only [Body.fits, Bool.and_eq_true] at h
    obtain ⟨⟨hid, ht⟩, hspec⟩ := h
    obtain ⟨form, n, hbytes, hread⟩ := specOf_bytes hspec
    have hv : t.volser.wellFormed = true := by
      simp only [Body.fits.termsFit, Bool.and_eq_true] at ht
      exact ht.1.1.1.1.1
    simp only [Body.payload, ReqId.bytes, Volser.bytes, hbytes, List.cons_append, List.nil_append, Body.kind, bodyOf, readOffer,
      volserOf_byteOf hv, idOf_byteOf hid, termsOf_tail ht, hread, toNat_station hid, if_true]
  | bid id e d =>
    simp only [Body.fits, Bool.and_eq_true, decide_eq_true_eq] at h
    obtain ⟨⟨hid, he⟩, hd⟩ := h
    have htop : Config.topEstimate = 65534 := rfl
    simp only [Body.payload, ReqId.bytes, bytes16, List.cons_append, List.nil_append, Body.kind, bodyOf, readBid, idOf_byteOf hid,
      num16_byteOf (show e ≤ 65535 by omega), toNat_byteOf (show d ≤ 255 by omega)]
    rw [if_pos (by simp [toNat_station hid, he, hd])]
  | award id t d =>
    simp only [Body.fits, Bool.and_eq_true, decide_eq_true_eq] at h
    obtain ⟨⟨hid, ht⟩, hd⟩ := h
    have hv : t.volser.wellFormed = true := by
      simp only [Body.fits.termsFit, Bool.and_eq_true] at ht
      exact ht.1.1.1.1.1
    simp only [Body.payload, ReqId.bytes, Volser.bytes, List.cons_append, List.nil_append, Body.kind, bodyOf, readAward,
      volserOf_byteOf hv, idOf_byteOf hid, termsOf_tail ht, toNat_byteOf (show d ≤ 255 by omega)]
    rw [if_pos (by simp [toNat_station hid, hd])]
  | accept id d =>
    simp only [Body.fits, Bool.and_eq_true, decide_eq_true_eq] at h
    obtain ⟨hid, hd⟩ := h
    simp only [Body.payload, ReqId.bytes, List.cons_append, List.nil_append, Body.kind, bodyOf, readAccept, idOf_byteOf hid,
      toNat_byteOf (show d ≤ 255 by omega)]
    rw [if_pos (by simp [toNat_station hid, hd])]
  | decline id r =>
    simp only [Body.payload, ReqId.bytes, List.cons_append, List.nil_append, Body.kind, bodyOf, readDecline, idOf_byteOf h,
      ofCode_decline, toNat_station h, if_true]
  | revoke id | cancel id | progress id =>
    simp only [Body.payload, ReqId.bytes, Body.kind, bodyOf, readId, idOf_byteOf h, toNat_station h, if_true]
  | result id k g =>
    simp only [Body.fits, Bool.and_eq_true, decide_eq_true_eq] at h
    obtain ⟨hid, hg⟩ := h
    simp only [Body.payload, ReqId.bytes, List.cons_append, List.nil_append, Body.kind, bodyOf, readResult, idOf_byteOf hid,
      ofCodes_result, toNat_byteOf (show g ≤ 255 by omega)]
    rw [if_pos (by simp [toNat_station hid, hg])]
  | fetch id v slot dest cls =>
    simp only [Body.fits, Bool.and_eq_true, decide_eq_true_eq] at h
    obtain ⟨⟨⟨⟨hid, hv⟩, hslot⟩, hdest⟩, hcls⟩ := h
    simp only [Body.payload, ReqId.bytes, Volser.bytes, bytes16, List.cons_append, List.nil_append, Body.kind, bodyOf, readFetch,
      volserOf_byteOf hv, idOf_byteOf hid, num16_slot hslot, toNat_byteOf (show dest ≤ 255 by omega), toNat_byteOf (show cls ≤ 255 by omega)]
    rw [if_pos (by simp [toNat_station hid, hv, hslot, hdest, hcls])]
  | notHere id v r =>
    simp only [Body.fits, Bool.and_eq_true] at h
    obtain ⟨hid, hv⟩ := h
    simp only [Body.payload, ReqId.bytes, Volser.bytes, List.cons_append, List.nil_append, Body.kind, bodyOf, readNotHere,
      volserOf_byteOf hv, idOf_byteOf hid, ofCode_notHere]
    rw [if_pos (by simp [toNat_station hid, hv])]
  | credit lane n =>
    simp only [Body.fits, Bool.and_eq_true, decide_eq_true_eq] at h
    obtain ⟨hlow, htop⟩ := h
    simp only [Body.payload, Body.kind, bodyOf, readCredit, ofCode_side, toNat_byteOf htop, hlow, if_true]
  | promptNotice n k v =>
    simp only [Body.fits, Bool.and_eq_true, decide_eq_true_eq] at h
    obtain ⟨hn, hv⟩ := h
    simp only [Body.payload, Volser.bytes, List.cons_append, List.nil_append, Body.kind, bodyOf, readNotice, ofCode_prompt,
      volserOf_byteOf hv, toNat_byteOf hn, hv, if_true]
  | promptCleared n =>
    simp only [Body.fits, decide_eq_true_eq] at h
    simp only [Body.payload, Body.kind, bodyOf, readCleared, toNat_byteOf h]
  | ack => rfl

/-! ### A frame, written and read -/

theorem ofCode_kind (k : FrameKind) : FrameKind.ofCode (byteOf k.code).toNat = some k := by
  cases k <;> rfl

theorem kind_length_le (k : FrameKind) : k.length ≤ 23 := by
  cases k <;> decide

/-- The two check bytes, read back. -/
theorem num16_check (c : BitVec 16) : BitVec.ofNat 16 (num16 (byteOf (c.toNat / 256)) (byteOf c.toNat)) = c := by
  rw [num16_byteOf (by have := c.isLt; omega), BitVec.ofNat_toNat, BitVec.setWidth_eq]

/-- The bytes sent spell the frame with their header fields, payload and check (R25, R26). -/
theorem frameOfBytes_frameBytes (dst : Option Nat) (src seq : Nat) (b : Body) :
    frameOfBytes (frameBytes dst src seq b)
      = some (b.kind, ⟨stationByte dst, byteOf src, byteOf seq, b.payload,
          frameCheck (headBytes (stationByte dst) (byteOf src) b.kind (byteOf seq) b.payload)⟩) := by
  have hlen : b.payload.length ≤ 23 := by
    rw [payload_length]
    exact kind_length_le b.kind
  rw [frameBytes]
  generalize frameCheck (headBytes (stationByte dst) (byteOf src) b.kind (byteOf seq) b.payload) = check
  simp only [headBytes, List.cons_append, List.nil_append, frameOfBytes, ofCode_kind, bytes16]
  rw [List.length_append, show b.payload.length + [byteOf (check.toNat / 256), byteOf check.toNat].length - 2 = b.payload.length from rfl,
    List.drop_left]
  dsimp only
  rw [toNat_byteOf (show b.payload.length ≤ 255 by omega),
    if_pos (show b.payload.length + [byteOf (check.toNat / 256), byteOf check.toNat].length = b.payload.length + 2 from rfl), List.take_left, num16_check]

/-- Settles O8: each field of the layouts is read back from its bytes, and so the payload and the frame around it. -/
theorem frameRoundTrip : Obligations.FrameRoundTrip := by
  intro b dst src seq hfits hsrc hseq hdst
  refine ⟨_, frameOfBytes_frameBytes dst src seq b, ?_, rfl, toNat_byteOf (by omega), toNat_byteOf hseq, bodyOf_payload hfits⟩
  have hkind : (if b.kind.broadcast then stationByte dst == 255 else decide ((stationByte dst).toNat ≤ 15)) = true := by
    cases hb : b.kind.broadcast with
    | true =>
      rw [hb, if_pos rfl] at hdst
      rw [hdst]
      rfl
    | false =>
      rw [hb, if_neg nofun] at hdst
      obtain ⟨a, rfl, ha⟩ := hdst
      simp [stationByte, toNat_byteOf (show a ≤ 255 by omega), ha]
  simp only [framePasses, beq_self_eq_true, toNat_byteOf (show src ≤ 255 by omega), hsrc, decide_true, payload_length, Bool.true_and, hkind]

end Sys2Proof.Machine


/-! The drive links: READY, LOAD FAILED, the load wait and UNLOADED. -/

namespace Sys2Proof.Machine

-- One proof at a time: proofs that wait for each other on threads of their own would reserve more stack than the check allows.
set_option Elab.async false

section
variable {s t : State}

/-! ### An order to a slot or a drive -/

/-- An order at the tail of the queue, with its number and its estimate (R84, R114). -/
def State.ordering (o : ArmOrder) (s : State) : State :=
  { s with seq := { s.seq with
    queue := s.seq.queue ++ [{ o with number := s.nextOrder, estimate := s.legEstimate o.src o.dst }]
    counter := (s.nextOrder + 1) % 256 } }

/-- A pick to a slot asks for nothing at its to-location (R114). -/
theorem takeOrder_slot {o : ArmOrder} {k : Nat} (h : o.dst = .slot k) (s : State) : takeOrder o none s = s.ordering o := by
  simp only [takeOrder, h, askDst]
  split <;> (rw [State.ordering, h]; rfl)

theorem drivePoint_updDrive {f : DriveRec → DriveRec} (hf : ∀ r, (f r).position = r.position) (d e : Nat) (s : State) :
    (updDrive d f s).drivePoint e = s.drivePoint e := by
  simp only [State.drivePoint, drive_updDrive]
  by_cases h : d = e
  · rw [if_pos h]
    cases s.drive e with
    | none => rfl
    | some r => simp only [Option.map_some, hf]
  · rw [if_neg h]

/-- An estimate reads the settings and the drives' positions (R84). -/
theorem legEstimate_congr (h1 : t.host.settings = s.host.settings) (h2 : ∀ d, t.drivePoint d = s.drivePoint d) (a b : Loc) :
    t.legEstimate a b = s.legEstimate a b := by
  have hloc (l : Loc) : t.locPoint l = s.locPoint l := by
    cases l with
    | drive d => exact h2 d
    | slot n => rfl
    | mouth d => simp only [State.locPoint, State.mouthPoint, State.settings, h1]
    | cell => simp only [State.locPoint, State.cellPoint, State.settings, h1]
  simp only [State.legEstimate, State.travel, State.settings, hloc, h1]

/-- A pick-back home to a slot of this station, as the Mount Unit offers it (R103, R108). -/
def MountRec.pickBack (m : MountRec) (d : Nat) : ArmOrder :=
  { ArmOrder.offer .returnLeg true (.drive d) (.slot m.homeSlot) .mount with mountId := some m.id, volser := some m.volser }

/-- The pick-back of a record homed here is queued at once while there is room (R91, R108). -/
theorem queuePickBack_home {id : ReqId} {m : MountRec} (hm : s.mount id = some m) (hh : m.home = some s.addr) (hroom : s.orderRoom = true) :
    queuePickBack id s = s.ordering (m.pickBack m.drive) := by
  have hdest : s.pickBackDest m = ⟨.slot m.homeSlot, .none, none⟩ := by
    simp only [State.pickBackDest, State.returnDest, hh, if_true]
  simp only [queuePickBack, hm, hdest, offerOrder, if_pos hroom]
  rw [takeOrder_slot rfl, ← (mount_spec hm).2]
  rfl

/-! ### A drive that is emptied -/

/-- A record on its way home (R91, R103). -/
def MountRec.emptying (m : MountRec) : MountRec := { m with stage := .returning, loadWait := none }

theorem emptying_id (m : MountRec) : m.emptying.id = m.id := rfl

/-- A drive whose reel is to be taken off it (R91). -/
def DriveRec.emptying (r : DriveRec) : DriveRec := { r with state := .emptying, aboard := .loose }

theorem startEmptying_eq (d : Nat) (id : ReqId) (s : State) :
    startEmptying d id s = updMount id MountRec.emptying (updDrive d DriveRec.emptying s) := rfl

/-- The order queue with the pick-back of a record homed here at its tail (R91, R108). -/
def State.pickingBack (m : MountRec) (s : State) : Sequencer :=
  { s.seq with
    queue := s.seq.queue ++ [{ m.pickBack m.drive with
      number := s.nextOrder, estimate := s.legEstimate (.drive m.drive) (.slot m.homeSlot) }]
    counter := (s.nextOrder + 1) % 256 }

/-- The pick-back of a record homed here, after a change to the record and its drive that the order does not read. -/
theorem queuePickBack_after {id : ReqId} {m m' : MountRec} (hm : t.mount id = some m') (hback : m'.pickBack m'.drive = m.pickBack m.drive)
    (hhome : m'.home = some s.addr) (hroom : s.orderRoom = true) (haddr : t.addr = s.addr) (hseq : t.seq = s.seq)
    (hset : t.host.settings = s.host.settings) (hpos : ∀ e, t.drivePoint e = s.drivePoint e) :
    queuePickBack id t = { t with seq := s.pickingBack m } := by
  have hplace : t.orderRoom = true := by rwa [State.orderRoom, hseq]
  have hnext : t.nextOrder = s.nextOrder := by simp only [State.nextOrder, State.orderNumbers, State.orders, hseq]
  rw [queuePickBack_home hm (haddr ▸ hhome) hplace, hback, State.ordering, State.pickingBack, hnext, hseq, legEstimate_congr hset hpos]
  rfl

/-! ### READY, LOAD FAILED and UNLOADED -/

theorem onReady_loading {d : Nat} {r : DriveRec} {id : ReqId} (hr : s.drive d = some r) (hst : r.state = .loading) (hi : r.mountId = some id) :
    onReady d s = driveReady d id s := by
  obtain ⟨_, _, _, _, _, _⟩ := r
  cases hst
  cases hi
  rw [onReady, hr]

theorem onReady_other {d : Nat} (h : ∀ r, s.drive d = some r → r.state ≠ .loading) : onReady d s = driveProtocol d .ready s := by
  unfold onReady
  split
  next heq => exact absurd rfl (h _ heq)
  next => rfl

theorem onLoadFailed_loading {d : Nat} {r : DriveRec} {id : ReqId} (hr : s.drive d = some r) (hst : r.state = .loading)
    (hi : r.mountId = some id) : onLoadFailed d s = loadLost d id s := by
  obtain ⟨_, _, _, _, _, _⟩ := r
  cases hst
  cases hi
  rw [onLoadFailed, hr]

theorem onLoadFailed_other {d : Nat} (h : ∀ r, s.drive d = some r → r.state ≠ .loading) : onLoadFailed d s = driveProtocol d .loadFailed s := by
  unfold onLoadFailed
  split
  next heq => exact absurd rfl (h _ heq)
  next => rfl

theorem onUnloaded_mounted {d : Nat} {c : Counts} {r : DriveRec} {id : ReqId} (hr : s.drive d = some r) (hst : r.state = .mounted)
    (hi : r.mountId = some id) : onUnloaded d c s = queuePickBack id (startEmptying d id (noteUnload id c s)) := by
  obtain ⟨_, _, _, _, _, _⟩ := r
  cases hst
  cases hi
  rw [onUnloaded, hr]

theorem onUnloaded_offline {d : Nat} {c : Counts} {r : DriveRec} {id : ReqId} (hr : s.drive d = some r) (hst : r.state = .offline)
    (ha : r.aboard = .threaded) (hi : r.mountId = some id) :
    onUnloaded d c s = noteUnload id c (updDrive d (fun r => { r with aboard := .loose }) s) := by
  obtain ⟨_, _, _, _, _, _⟩ := r
  cases hst
  cases ha
  cases hi
  rw [onUnloaded, hr]

theorem onUnloaded_other {d : Nat} {c : Counts} (h : ∀ r, s.drive d = some r → r.state ≠ .mounted ∧ (r.state = .offline → r.aboard ≠ .threaded)) :
    onUnloaded d c s = driveProtocol d .unloaded s := by
  unfold onUnloaded
  split
  next heq => exact absurd rfl (h _ heq).1
  next heq => exact absurd rfl ((h _ heq).2 rfl)
  next => rfl

/-- READY makes drive and record MOUNTED, and RESULT MOUNTED is queued for the originator, another station (R91, R103). -/
theorem driveReady_tells {d : Nat} {id : ReqId} {m : MountRec} (hm : s.mount id = some m) (hr : m.resultSent = .none) (hf : m.failure = none)
    (ho : m.originator ≠ s.addr) (hroom : s.lineRoom = true) :
    driveReady d id s = (updMount id (fun m => { m with
        loadWait := none, readyTime := some s.clock, reachedMounted := true, stage := .mounted, resultSent := .mounted })
      (updDrive d (fun r => { r with state := .mounted }) s)).queueing (some m.originator) (.result id .mounted (s.globalDrive d)) := by
  have hm1 : (updDrive d (fun r => { r with state := .mounted }) s).mount id = some m := hm
  have hreports : m.reports = true := by
    simp only [MountRec.reports, hr, hf]
    rfl
  have hboth := updMount_updMount (f := fun m => { m with
    loadWait := none, readyTime := some s.clock, reachedMounted := true, stage := .mounted }) (g := fun m => { m with resultSent := .mounted })
    (fun _ => rfl) id (updDrive d (fun r => { r with state := .mounted }) s)
  simp only [driveReady, hm1, hreports, if_true, show (updDrive d (fun r => { r with state := .mounted }) s).clock = s.clock from rfl, hboth]
  refine (if_neg ho).trans ?_
  exact offerTo_plain (s := updMount id _ (updDrive d (fun r => { r with state := .mounted }) s)) hroom (by simp [Body.kind]) (by simp [Body.kind])

/-- A load that is lost empties the drive: the record fails THREAD with its RESULT, and its pick-back is queued (R91, R103). -/
theorem loadLost_home {d : Nat} {id : ReqId} {m : MountRec} (hm : s.mount id = some m) (hr : m.resultSent = .none) (hf : m.failure = none)
    (ho : m.originator ≠ s.addr) (hroom : s.lineRoom = true) (hh : m.home = some s.addr) (hplace : s.orderRoom = true) :
    loadLost d id s = { (updMount id (fun m => m.emptying.failedAs .thread) (updDrive d DriveRec.emptying s)).queueing
      (some m.originator) (.result id (.failed .thread) 0) with seq := s.pickingBack m } := by
  have hm1 : (startEmptying d id s).mount id = some m.emptying := mount_updMount_same (s := updDrive d DriveRec.emptying s) emptying_id hm
  have hfail : failRecord id .thread (startEmptying d id s)
      = (updMount id (MountRec.failedAs .thread) (startEmptying d id s)).queueing (some m.originator) (.result id (.failed .thread) 0) :=
    failRecord_tells (m := m.emptying) hm1 hr hf (by decide) ho hroom
  rw [startEmptying_eq, updMount_updMount emptying_id] at hfail
  rw [loadLost, startEmptying_eq, hfail]
  have hm2 : ((updMount id (fun m => m.emptying.failedAs .thread) (updDrive d DriveRec.emptying s)).queueing
      (some m.originator) (.result id (.failed .thread) 0)).mount id = some (m.emptying.failedAs .thread) :=
    mount_updMount_same (s := updDrive d DriveRec.emptying s) (f := fun m => m.emptying.failedAs .thread) emptying_id hm
  exact queuePickBack_after hm2 rfl hh hplace rfl rfl rfl (fun e => drivePoint_updDrive (f := DriveRec.emptying) (fun _ => rfl) d e s)

/-- A record whose drive has said UNLOADED (R103). -/
def MountRec.unloaded (c : Counts) (clock : Nat) (m : MountRec) : MountRec :=
  { m with counts := some c, unloadTime := some (m.unloadTime.getD clock) }

theorem unloaded_id (c : Counts) (clock : Nat) (m : MountRec) : (m.unloaded c clock).id = m.id := rfl

/-- UNLOADED at a MOUNTED drive notes the counts and the unload time and queues the pick-back (R91, R103). -/
theorem unloaded_home {d : Nat} {c : Counts} {id : ReqId} {m : MountRec} (hm : s.mount id = some m) (hh : m.home = some s.addr)
    (hplace : s.orderRoom = true) :
    queuePickBack id (startEmptying d id (noteUnload id c s))
      = { updMount id (fun m => (m.unloaded c s.clock).emptying) (updDrive d DriveRec.emptying s) with seq := s.pickingBack m } := by
  have hboth := updMount_updMount (f := MountRec.unloaded c s.clock) (g := MountRec.emptying) (unloaded_id c s.clock) id
    (updDrive d DriveRec.emptying s)
  have hunload : startEmptying d id (noteUnload id c s)
      = updMount id (fun m => (m.unloaded c s.clock).emptying) (updDrive d DriveRec.emptying s) := hboth
  have hm1 : (updMount id (fun m => (m.unloaded c s.clock).emptying) (updDrive d DriveRec.emptying s)).mount id
      = some (m.unloaded c s.clock).emptying :=
    mount_updMount_same (s := updDrive d DriveRec.emptying s) (f := fun m => (m.unloaded c s.clock).emptying) (unloaded_id c s.clock) hm
  rw [hunload]
  exact queuePickBack_after hm1 rfl hh hplace rfl rfl rfl (fun e => drivePoint_updDrive (f := DriveRec.emptying) (fun _ => rfl) d e s)

/-- Settles O55: each event by the drive's state, and the record's outcome by `driveReady_tells`, `loadLost_home` and `unloaded_home`. -/
theorem driveLinkEvents : Obligations.DriveLinkEvents := by
  intro s d c hs hheld protocol
  have told {u : State} {f : State → State} (hu : f s = u) (hus : u.settled = true) : runEvent f s = .next u := runEvent_ends hheld hu hus
  refine ⟨fun hst => ⟨?_, ?_⟩, fun hst => ?_, fun r id hr hst ha hi => ?_, fun r id m hr hi hm hd => ?_⟩
  · exact told (onReady_other hst) (settled_of_same hs rfl rfl rfl rfl)
  · exact told (onLoadFailed_other hst) (settled_of_same hs rfl rfl rfl rfl)
  · exact told (onUnloaded_other hst) (settled_of_same hs rfl rfl rfl rfl)
  · exact told (onUnloaded_offline hr hst ha hi) (settled_of_same hs rfl rfl rfl rfl)
  · subst hd
    have hid := (mount_spec hm).2
    intro back emptied lost
    have hback : { m.pickBack m.drive with
        number := s.nextOrder, estimate := s.legEstimate (.drive m.drive) (.slot m.homeSlot) } = back := by rw [MountRec.pickBack, hid]
    have hqueue : s.pickingBack m = { s.seq with queue := s.seq.queue ++ [back], counter := (s.nextOrder + 1) % 256 } := by
      rw [State.pickingBack, hback]
    refine ⟨fun hst hres hf ho hroom => ⟨?_, fun hh hplace => ?_⟩, fun hst hh hplace => ?_⟩
    · exact told ((onReady_loading hr hst hi).trans (driveReady_tells hm hres hf ho hroom)) (settled_of_same hs rfl rfl rfl rfl)
    · have hlost := loadLost_home (d := m.drive) hm hres hf ho hroom hh hplace
      rw [hqueue] at hlost
      refine ⟨runEvent_settles hheld ((onLoadFailed_loading hr hst hi).trans hlost), fun hstage hwait => ?_⟩
      refine runEvent_settles hheld (Eq.trans ?_ hlost)
      simp only [loadWaitExpired, hm, hstage, hwait, and_self, if_true]
    · have hunload := unloaded_home (d := m.drive) (c := c) hm hh hplace
      rw [hqueue] at hunload
      exact runEvent_settles hheld ((onUnloaded_mounted hr hst hi).trans hunload)

end
end Sys2Proof.Machine


/-! The drive links: OFFLINE and ONLINE, and the arrival limit. -/

namespace Sys2Proof.Machine

-- One proof at a time: proofs that wait for each other on threads of their own would reserve more stack than the check allows.
set_option Elab.async false

section
variable {s t u : State}

/-! ### What an order gives back -/

/-- Orders, lanes and the cell have changed, and nothing else; no prompt holds an answer that it did not hold. -/
def GivesBack (s u : State) : Prop :=
  u = { s with seq := u.seq, lane := u.lane, prm := u.prm } ∧ ∀ id, s.answerHeld id = false → u.answerHeld id = false

theorem GivesBack.trans (h1 : GivesBack s t) (h2 : GivesBack t u) : GivesBack s u := by
  obtain ⟨ht, hta⟩ := h1
  obtain ⟨hu, hua⟩ := h2
  exact ⟨hu.trans (by rw [ht]), fun id h => hua id (hta id h)⟩

/-- A change of orders and lanes alone. -/
theorem GivesBack.of (h : t = { s with seq := t.seq, lane := t.lane, prm := { s.prm with cells := t.prm.cells, waiters := t.prm.waiters } }) :
    GivesBack s t := by
  have hp : t.prm.prompts = s.prm.prompts := by rw [h]
  refine ⟨h.trans ?_, fun id hid => by rwa [State.answerHeld, hp]⟩
  rw [h]

theorem grantCell_givesBack (i : Nat) (w : Holder) (s : State) : GivesBack s (grantCell i w s) := by
  cases w with
  | order n => exact .of rfl
  | prompt n =>
    refine ⟨rfl, fun id hid => ?_⟩
    rw [State.answerHeld, List.any_eq_false] at hid ⊢
    intro p hp
    obtain ⟨q, hq, rfl⟩ := List.mem_map.mp hp
    have := hid q hq
    dsimp only
    split
    · exact this
    · exact this

theorem freeCell_givesBack (i : Nat) (s : State) : GivesBack s (freeCell i s) := by
  unfold freeCell
  split
  · exact .of rfl
  · exact GivesBack.trans (.of rfl) (grantCell_givesBack ..)

theorem grantFrom_givesBack (d : Side) (l : List Nat) : ∀ s, GivesBack s (grantFrom d l s) := by
  induction l with
  | nil => exact fun s => .of rfl
  | cons n rest ih =>
    intro s
    rw [grantFrom]
    split
    · refine GivesBack.trans ?_ (ih _)
      cases d <;> exact .of rfl
    · exact .of rfl

theorem giveBackCredit_givesBack (d : Side) (n : Nat) (s : State) : GivesBack s (giveBackCredit d n s) := by
  unfold giveBackCredit
  dsimp only
  split
  · refine GivesBack.trans ?_ (grantFrom_givesBack d _ _)
    cases d <;> exact .of rfl
  · cases d <;> exact .of rfl

theorem removeOrder_givesBack (n : Nat) (s : State) : GivesBack s (removeOrder n s) := by
  unfold removeOrder
  split
  next o _ =>
    have hdst : GivesBack s (releaseDst o s) := by
      unfold releaseDst
      split
      · split
        · exact GivesBack.trans (.of rfl) (freeCell_givesBack ..)
        · exact .of rfl
      · exact giveBackCredit_givesBack ..
      all_goals exact .of rfl
    have hsrc : GivesBack (releaseDst o s) (releaseSrc o (releaseDst o s)) := by
      unfold releaseSrc
      split
      · exact GivesBack.trans (.of rfl) (freeCell_givesBack ..)
      · exact .of rfl
    exact (hdst.trans hsrc).trans (.of rfl)
  next => exact .of rfl

theorem dropPickBack_givesBack (d : Nat) (s : State) : GivesBack s (dropPickBack d s) := by
  unfold dropPickBack
  dsimp only
  split
  · exact GivesBack.trans (.of rfl) (removeOrder_givesBack ..)
  · exact .of rfl

/-- Waiting offers without the pick-backs from a drive (R92). -/
def WaitingOffer.notPickBack (d : Nat) (w : WaitingOffer) : Bool :=
  match w with
  | .order q _ _ => !q.isPickBack d
  | .laneHead _ | .sourceLocal _ => true

/-- The waiting offers without the pick-backs from a drive. -/
def State.unpicked (d : Nat) (s : State) : State :=
  { s with seq := { s.seq with waiting := s.seq.waiting.filter (WaitingOffer.notPickBack d) } }

theorem dropPickBack_eq (d : Nat) (s : State) : dropPickBack d s = match s.seq.queue.find? (ArmOrder.isPickBack d) with
    | some o => removeOrder o.number (s.unpicked d)
    | none => s.unpicked d := rfl

/-- With no pick-back from the drive queued or waiting there is nothing to remove (R92). -/
theorem dropPickBack_none {d : Nat} (hq : ∀ q ∈ s.seq.queue, q.isPickBack d = false)
    (hw : ∀ q p st, .order q p st ∈ s.seq.waiting → q.isPickBack d = false) : dropPickBack d s = s := by
  have hkept : s.seq.waiting.filter (WaitingOffer.notPickBack d) = s.seq.waiting := by
    refine List.filter_eq_self.mpr fun w hmem => ?_
    cases w with
    | order q p st => exact congrArg not (hw q p st hmem)
    | laneHead | sourceLocal => rfl
  have hnone : s.seq.queue.find? (ArmOrder.isPickBack d) = none :=
    List.find?_eq_none.mpr fun q hmem => Bool.eq_false_iff.mp (hq q hmem)
  rw [dropPickBack_eq, hnone]
  simp only [State.unpicked, hkept]

/-- A queued pick-back to a slot, and those that wait with it, are removed (R92, R115). -/
theorem dropPickBack_slot {d k : Nat} {o : ArmOrder} (hf : s.seq.queue.find? (ArmOrder.isPickBack d) = some o)
    (hn : s.seq.queue.find? (fun q => q.number = o.number) = some o) (hdst : o.dst = .slot k) (hsrc : o.srcPos = none) :
    dropPickBack d s = { s with seq := { s.seq with
      queue := s.seq.queue.filter fun q => q.number ≠ o.number
      waiting := s.seq.waiting.filter fun w => match w with
        | .order q _ _ => !q.isPickBack d
        | .laneHead _ | .sourceLocal _ => true } } := by
  have hqueue : (s.seq.queue.filter fun q => q.number != o.number) = s.seq.queue.filter fun q => q.number ≠ o.number := by
    refine List.filter_congr fun q _ => ?_
    by_cases h : q.number = o.number <;> simp [h]
  have hn' : (s.unpicked d).seq.queue.find? (fun q => q.number = o.number) = some o := hn
  rw [dropPickBack_eq, hf]
  simp only [removeOrder, hn', releaseDst, hdst, releaseSrc, hsrc]
  rw [show (s.unpicked d).seq.queue = s.seq.queue from rfl, hqueue] <;> rfl

/-! ### OFFLINE -/

theorem driveProtocol_fitted {d : Nat} {r : DriveRec} (hr : s.drive d = some r) (e : DriveEvent) :
    driveProtocol d e s = postMount (.driveProtocol d e (some r.state)) s := by
  rw [driveProtocol, hr]
  rfl

/-- A drive in OFFLINE (R92). -/
def DriveRec.off (r : DriveRec) : DriveRec := { r with state := .offline }

/-- A drive in OFFLINE that its record has given up (R92, R105). -/
def DriveRec.offReleased (r : DriveRec) : DriveRec := { r with state := .offline, mountId := none }

theorem modify_off_released (l : List DriveRec) (d : Nat) :
    (l.modify d DriveRec.off).modify d DriveRec.released = l.modify d DriveRec.offReleased := by
  rw [List.modify_modify_eq]
  rfl

/-- The state as OFFLINE leaves it, but for the record that holds the drive: no pick-back from the drive, and the drive OFFLINE (R92). -/
def State.cleared (s : State) (d : Nat) (mounts : List MountRec) : State :=
  { dropPickBack d s with mnt := { s.mnt with drives := s.mnt.drives.modify d DriveRec.off, mounts := mounts } }

theorem cleared_eq (d : Nat) (s : State) : updDrive d (fun r => { r with state := .offline }) (dropPickBack d s) = s.cleared d s.mnt.mounts := by
  have hmnt : (dropPickBack d s).mnt = s.mnt := by rw [(dropPickBack_givesBack d s).1]
  simp only [updDrive, hmnt]
  rfl

theorem onOffline_again {d : Nat} {r : DriveRec} (hr : s.drive d = some r) (hst : r.state = .offline) :
    onOffline d s = driveProtocol d .offline s := by
  simp only [onOffline, hr, hst, if_true]

theorem onOffline_free {d : Nat} {r : DriveRec} (hr : s.drive d = some r) (hst : r.state ≠ .offline) (hi : r.mountId = none) :
    onOffline d s = s.cleared d s.mnt.mounts := by
  simp only [onOffline, hr, if_neg hst, hi, cleared_eq]

theorem onOffline_held {d : Nat} {r : DriveRec} {id : ReqId} (hr : s.drive d = some r) (hst : r.state ≠ .offline) (hi : r.mountId = some id) :
    onOffline d s = recordOffline id (s.cleared d s.mnt.mounts) := by
  simp only [onOffline, hr, if_neg hst, hi, cleared_eq]

theorem cleared_mount (d : Nat) (id : ReqId) (s : State) : (s.cleared d s.mnt.mounts).mount id = s.mount id := rfl

/-- A record as its drive is lost while its reel is loaded (R104). -/
def MountRec.unwaited (m : MountRec) : MountRec := { m with loadWait := none }

theorem unwaited_id (m : MountRec) : m.unwaited.id = m.id := rfl

theorem dropPickBack_rooms (d : Nat) (s : State) : (dropPickBack d s).lineRoom = s.lineRoom ∧ (dropPickBack d s).addr = s.addr
    ∧ (dropPickBack d s).clock = s.clock := by
  rw [(dropPickBack_givesBack d s).1]
  exact ⟨rfl, rfl, rfl⟩

/-- OFFLINE of an ALLOCATED drive whose record waits for its reel from another station: it fails DRIVE LOST, turns back and gives the drive
up (R104, R105). -/
theorem recordOffline_remote {d : Nat} {id : ReqId} {m : MountRec} (hm : s.mount id = some m) (hd : m.drive = d) (hheld : m.driveHeld = true)
    (hst : m.stage = .sourcing) {a : Nat} (hh : m.home = some a) (hne : a ≠ s.addr) (hback : m.turningBack = false)
    (hr : m.resultSent = .none) (hf : m.failure = none) (ho : m.originator ≠ s.addr) (hroom : s.lineRoom = true)
    (hans : s.answerHeld id = false) :
    recordOffline id (s.cleared d s.mnt.mounts) = { dropPickBack d s with mnt := { s.mnt with
      drives := s.mnt.drives.modify d DriveRec.offReleased
      mounts := updWhere (fun x => x.id = id) (fun m => (m.failedAs .driveLost).turned.undriven) s.mnt.mounts } }.queueing
      (some m.originator) (.result id (.failed .driveLost) 0) := by
  subst hd
  obtain ⟨hline, haddr, -⟩ := dropPickBack_rooms m.drive s
  have hmc : (s.cleared m.drive s.mnt.mounts).mount id = some m := hm
  have hfail := failRecord_tells (s := s.cleared m.drive s.mnt.mounts) hmc hr hf (r := .driveLost) (by decide)
    (fun e => ho (e.trans haddr)) (hline.trans hroom)
  have hmf : ((updMount id (MountRec.failedAs .driveLost) (s.cleared m.drive s.mnt.mounts)).queueing (some m.originator)
      (.result id (.failed .driveLost) 0)).mount id = some (m.failedAs .driveLost) := mount_updMount_same (failedAs_id _) hmc
  have hkeeps : ((updMount id (MountRec.failedAs .driveLost) (s.cleared m.drive s.mnt.mounts)).queueing (some m.originator)
      (.result id (.failed .driveLost) 0)).answerHeld id = false := (dropPickBack_givesBack m.drive s).2 id hans
  have hturn := turnBack_remote hmf hback hst hkeeps hh
    (fun e => hne (e.trans haddr)) hheld
  have hboth := congrArg (·.mnt.mounts) (updMount_updMount (f := MountRec.failedAs .driveLost) (g := fun m => m.turned.undriven)
    (failedAs_id _) id s)
  have hoff : recordOffline id (s.cleared m.drive s.mnt.mounts)
      = turnBack id (failRecord id .driveLost (s.cleared m.drive s.mnt.mounts)) := by simp only [recordOffline, hmc, hst]
  rw [hoff, hfail, hturn]
  simp only [updMount] at hboth
  simp only [updDrive, updMount, State.queueing, State.cleared, hboth]
  rw [show (m.failedAs .driveLost).drive = m.drive from rfl, modify_off_released]

/-- OFFLINE of a LOADING drive: its record fails DRIVE LOST, its load wait stopped, and goes on holding the drive (R104). -/
theorem recordOffline_loading {d : Nat} {id : ReqId} {m : MountRec} (hm : s.mount id = some m) (hst : m.stage = .loading)
    (hr : m.resultSent = .none) (hf : m.failure = none) (ho : m.originator ≠ s.addr) (hroom : s.lineRoom = true) :
    recordOffline id (s.cleared d s.mnt.mounts) = { dropPickBack d s with mnt := { s.mnt with
      drives := s.mnt.drives.modify d DriveRec.off
      mounts := updWhere (fun x => x.id = id) (fun m => m.unwaited.failedAs .driveLost) s.mnt.mounts } }.queueing
      (some m.originator) (.result id (.failed .driveLost) 0) := by
  obtain ⟨hline, haddr, -⟩ := dropPickBack_rooms d s
  have hmc : (s.cleared d s.mnt.mounts).mount id = some m := hm
  have hmw : (updMount id MountRec.unwaited (s.cleared d s.mnt.mounts)).mount id = some m.unwaited := mount_updMount_same unwaited_id hmc
  have hfail := failRecord_tells (m := m.unwaited) hmw hr hf (r := .driveLost) (by decide)
    (fun e => ho (e.trans haddr)) (hline.trans hroom)
  rw [updMount_updMount unwaited_id] at hfail
  simp only [recordOffline, hmc, hst]
  exact hfail

theorem recordOffline_mounted {d : Nat} {id : ReqId} {m : MountRec} (hm : s.mount id = some m) (hst : m.stage = .mounted) :
    recordOffline id (s.cleared d s.mnt.mounts) = s.cleared d (updWhere (fun x => x.id = id) (fun x => { x with
      unloadTime := some (x.unloadTime.getD s.clock) }) s.mnt.mounts) := by
  have hclock : (s.cleared d s.mnt.mounts).clock = s.clock := (dropPickBack_rooms d s).2.2
  simp only [recordOffline, cleared_mount, hm, hst, hclock]
  rfl

theorem recordOffline_returning {id : ReqId} {m : MountRec} (hm : s.mount id = some m) (hst : m.stage = .returning) : recordOffline id s = s := by
  simp only [recordOffline, hm, hst]

/-! ### ONLINE -/

theorem onOnline_other {d : Nat} {r : DriveRec} (hr : s.drive d = some r) (hst : r.state ≠ .offline) : onOnline d s = driveProtocol d .online s := by
  simp only [onOnline, hr, if_neg hst]

theorem onOnline_threaded {d : Nat} {r : DriveRec} (hr : s.drive d = some r) (hst : r.state = .offline) (ha : r.aboard = .threaded) :
    onOnline d s = updDrive d (fun r => { r with state := .mounted }) s := by
  simp only [onOnline, hr, hst, if_true, ha]

theorem onOnline_empty {d : Nat} {r : DriveRec} (hr : s.drive d = some r) (hst : r.state = .offline) (ha : r.aboard = .none) :
    onOnline d s = match r.mountId with
      | some id => updMount id MountRec.undriven (updDrive d (fun r => { r with state := .free, mountId := none }) s)
      | none => updDrive d (fun r => { r with state := .free }) s := by
  simp only [onOnline, hr, hst, if_true, ha] <;> cases r.mountId <;> rfl

theorem onOnline_loose {d : Nat} {r : DriveRec} (hr : s.drive d = some r) (hst : r.state = .offline) (ha : r.aboard = .loose) :
    onOnline d s = match s.leftOn d, r.mountId with
      | some m, _ => onlineLoose d m.id (reclaimDrive d m.id r.mountId s)
      | none, some id => onlineLoose d id s
      | none, none => updDrive d (fun r => { r with state := .emptying }) s := by
  simp only [onOnline, hr, hst, if_true, ha] <;> cases s.leftOn d <;> cases r.mountId <;> rfl

/-- A drive that its record takes again to have it emptied (assumption 17). -/
def DriveRec.retaken (id : ReqId) (r : DriveRec) : DriveRec := { r with mountId := some id }

/-- A record that takes the drive again on which its reel was left (assumption 17). -/
def MountRec.retaking (m : MountRec) : MountRec := { m with driveHeld := true, reelLeft := false }

theorem retaking_id (m : MountRec) : m.retaking.id = m.id := rfl

/-- The pick-back is queued of a drive that comes ONLINE with a LOOSE reel, home to a slot of this station (R92). -/
theorem onlineLoose_home {d : Nat} {id : ReqId} {m m' : MountRec} (hm : t.mount id = some m') (hback : m'.pickBack m'.drive = m.pickBack m.drive)
    (hhome : m'.home = some s.addr) (hroom : s.orderRoom = true) (hnone : s.orders.any (ArmOrder.isPickBack d) = false)
    (haddr : t.addr = s.addr) (hseq : t.seq = s.seq) (hset : t.host.settings = s.host.settings) (hpos : ∀ e, t.drivePoint e = s.drivePoint e) :
    onlineLoose d id t = { updMount id MountRec.emptying (updDrive d DriveRec.emptying t) with seq := s.pickingBack m } := by
  have hany : (startEmptying d id t).orders.any (ArmOrder.isPickBack d) = false := by
    rw [show (startEmptying d id t).orders = t.orders from rfl, State.orders, hseq]
    exact hnone
  have hme : (updMount id MountRec.emptying (updDrive d DriveRec.emptying t)).mount id = some m'.emptying :=
    mount_updMount_same (s := updDrive d DriveRec.emptying t) emptying_id hm
  have heq : onlineLoose d id t = queuePickBack id (startEmptying d id t) := by
    simp only [onlineLoose, hany, Bool.false_eq_true, if_false]
  rw [heq, startEmptying_eq]
  exact queuePickBack_after hme hback hhome hroom haddr hseq hset
    fun e => (drivePoint_updDrive (f := DriveRec.emptying) (fun _ => rfl) d e t).trans (hpos e)

/-- A record whose drive another has given up, or that has given it up itself, goes home as before. -/
theorem mount_undriven (h : ReqId) {id : ReqId} {m : MountRec} (hm : s.mount id = some m) :
    ∃ m', (updMount h MountRec.undriven s).mount id = some m' ∧ (m' = m ∨ m' = m.undriven) := by
  by_cases e : id = h
  · subst e
    exact ⟨_, mount_updMount_same undriven_id hm, .inr rfl⟩
  · exact ⟨m, (mount_updMount_other undriven_id e s).trans hm, .inl rfl⟩

/-- The mounts as the holder of a drive, if there is one, gives it up. -/
def State.mountsWithout (s : State) (holder : Option ReqId) : List MountRec :=
  match holder with
  | some h => updWhere (fun x : MountRec => x.id = h) MountRec.undriven s.mnt.mounts
  | none => s.mnt.mounts

theorem reclaimDrive_eq (d : Nat) (id : ReqId) (holder : Option ReqId) (s : State) :
    reclaimDrive d id holder s = updMount id MountRec.retaking (updDrive d (DriveRec.retaken id)
      { s with mnt := { s.mnt with mounts := s.mountsWithout holder } }) := by
  cases holder <;> rfl

/-- ONLINE with the LOOSE reel of a record that does not hold the drive: that record takes the drive, and the pick-back is queued (R92,
assumption 69). -/
theorem onlineLoose_reclaimed {d : Nat} {holder : Option ReqId} {m : MountRec} (hm : s.mount m.id = some m) (hh : m.home = some s.addr)
    (hroom : s.orderRoom = true) (hnone : s.orders.any (ArmOrder.isPickBack d) = false) :
    onlineLoose d m.id (reclaimDrive d m.id holder s) = { s with
      mnt := { s.mnt with
        drives := s.mnt.drives.modify d fun r => (r.retaken m.id).emptying
        mounts := updWhere (fun x => x.id = m.id) (fun x => x.retaking.emptying) (s.mountsWithout holder) }
      seq := s.pickingBack m } := by
  obtain ⟨m', hm', hsame⟩ : ∃ m', State.mount { s with mnt := { s.mnt with mounts := s.mountsWithout holder } } m.id = some m'
      ∧ (m' = m ∨ m' = m.undriven) := by
    cases holder with
    | some h => exact mount_undriven h hm
    | none => exact ⟨m, hm, .inl rfl⟩
  have hm2 : (reclaimDrive d m.id holder s).mount m.id = some m'.retaking := by
    rw [reclaimDrive_eq]
    exact mount_updMount_same (s := updDrive d _ { s with mnt := { s.mnt with mounts := s.mountsWithout holder } }) retaking_id hm'
  have hback : m'.retaking.pickBack m'.retaking.drive = m.pickBack m.drive := by obtain rfl | rfl := hsame <;> rfl
  have hhome : m'.retaking.home = some s.addr := by obtain rfl | rfl := hsame <;> exact hh
  have hpos (e : Nat) : (reclaimDrive d m.id holder s).drivePoint e = s.drivePoint e := by
    rw [reclaimDrive_eq]
    exact drivePoint_updDrive (f := DriveRec.retaken m.id) (fun _ => rfl) d e { s with mnt := { s.mnt with mounts := s.mountsWithout holder } }
  have hseq : (reclaimDrive d m.id holder s).seq = s.seq := by rw [reclaimDrive_eq]; rfl
  have haddr : (reclaimDrive d m.id holder s).addr = s.addr := by rw [reclaimDrive_eq]; rfl
  have hset : (reclaimDrive d m.id holder s).host.settings = s.host.settings := by rw [reclaimDrive_eq]; rfl
  rw [onlineLoose_home hm2 hback hhome hroom hnone haddr hseq hset hpos, reclaimDrive_eq]
  have hboth := congrArg (·.mnt.mounts) (updMount_updMount (f := MountRec.retaking) (g := MountRec.emptying) retaking_id m.id
    { s with mnt := { s.mnt with mounts := s.mountsWithout holder } })
  simp only [updMount] at hboth
  simp only [updDrive, updMount, hboth, List.modify_modify_eq]
  rfl

/-! ### The arrival limit -/

theorem arrivalExpired_idle {id : ReqId} {m : MountRec} (hm : s.mount id = some m) (h : m.stage ≠ .sourcing ∨ m.arrivalLimit ≠ some 0) :
    arrivalExpired id s = s := by
  simp only [arrivalExpired, hm]
  exact if_neg fun ⟨h1, h2⟩ => h.elim (fun e => e h1) fun e => e h2

theorem loadWaitExpired_idle {id : ReqId} {m : MountRec} (hm : s.mount id = some m) (h : m.stage ≠ .loading ∨ m.loadWait ≠ some 0) :
    loadWaitExpired id s = s := by
  simp only [loadWaitExpired, hm]
  exact if_neg fun ⟨h1, h2⟩ => h.elim (fun e => e h1) fun e => e h2

theorem arrivalExpired_due {id : ReqId} {m : MountRec} (hm : s.mount id = some m) (h1 : m.stage = .sourcing) (h2 : m.arrivalLimit = some 0) :
    arrivalExpired id s = failAndClose id .transit s := by
  simp only [arrivalExpired, hm, h1, h2, and_self, if_true]

theorem mountPrompt_empty (h : s.prm.prompts = []) (id : ReqId) (k : PromptKind) : s.mountPrompt id k = none := by
  rw [mountPrompt_none_iff, h]
  exact fun p hp => absurd hp List.not_mem_nil

/-- Settles O56: OFFLINE and ONLINE by the drive's state and what it carries, and `failAndClose_told` at the arrival limit. -/
theorem offlineOnlineAndArrivalLimit : Obligations.OfflineOnlineAndArrivalLimit := by
  refine ⟨fun s d r hs hheld hr => ?link, fun s id m hs hheld hm => ?limit⟩
  case link =>
    intro sets protocol each told clear off lost back emptying
    have ends {u : State} {f : State → State} (hu : f s = u) (hus : u.settled = true) : runEvent f s = .next u := runEvent_ends hheld hu hus
    have settles {u : State} {f : State → State} (hu : f s = u) : runEvent f s = .next (settle false u) := runEvent_settles hheld hu
    have hfreed {id : ReqId} (hi : r.mountId = some id) {st : DriveState} (hst : r.state = st) (hne : st ≠ .offline) :
        onOffline d s = recordOffline id (s.cleared d s.mnt.mounts) := onOffline_held hr (by rw [hst]; exact hne) hi
    have hpicking (m : MountRec) (hd : m.drive = d) : s.pickingBack m
        = { s.seq with queue := s.seq.queue ++ [back m], counter := (s.nextOrder + 1) % 256 } := by
      subst hd
      rfl
    refine ⟨fun hst => ?_, fun hq hw => dropPickBack_none hq hw, fun o k hf hn hdst hsrc => dropPickBack_slot hf hn hdst hsrc,
      fun hst hi => settles (onOffline_free hr hst hi), fun id m hst hi hm hstage => ?_,
      fun id m a hst hi hm hd hheld hstage hh hne hback htold hans => ?_, fun id m hst hi hm hstage htold => ?_,
      fun id m hst hi hm hstage => ?_, fun hst => ?_, fun hst ha => ?_, fun m hst ha hm hh hnone hroom => ⟨fun hleft hi hd => ?_, fun hleft => ?_⟩,
      fun hst ha hi hleft => ?_, fun hst ha hi => ?_, fun id hst ha hi => ?_⟩
    · exact ends ((onOffline_again hr hst).trans (driveProtocol_fitted hr _)) (settled_of_same hs rfl rfl rfl rfl)
    · exact settles ((hfreed hi hst nofun).trans (recordOffline_mounted hm hstage))
    · obtain ⟨hres, hf, ho, hroom⟩ := htold
      have hid := (mount_spec hm).2
      have heq := recordOffline_remote hm hd hheld hstage hh hne hback hres hf ho hroom (answerHeld_false hans)
      rw [← hid] at heq
      refine (settles ((hfreed hi hst nofun).trans (hid ▸ heq))).trans ?_
      rw [← hid]
      rfl
    · obtain ⟨hres, hf, ho, hroom⟩ := htold
      have hid := (mount_spec hm).2
      refine (settles ((hfreed hi hst nofun).trans (recordOffline_loading hm hstage hres hf ho hroom))).trans ?_
      rw [← hid]
      rfl
    · exact settles ((hfreed hi hst nofun).trans (recordOffline_returning (s := s.cleared d s.mnt.mounts) hm hstage))
    · exact ends ((onOnline_other hr hst).trans (driveProtocol_fitted hr _)) (settled_of_same hs rfl rfl rfl rfl)
    · exact ends (onOnline_threaded hr hst ha) (settled_of_same hs rfl rfl rfl rfl)
    · have heq : onOnline d s = onlineLoose d m.id s := by rw [onOnline_loose hr hst ha, hleft, hi]
      refine (settles (heq.trans (onlineLoose_home (s := s) hm rfl hh hroom hnone rfl rfl rfl fun _ => rfl))).trans ?_
      rw [hpicking m hd]
      rfl
    · have heq : onOnline d s = onlineLoose d m.id (reclaimDrive d m.id r.mountId s) := by rw [onOnline_loose hr hst ha, hleft]
      refine (settles (heq.trans (onlineLoose_reclaimed hm hh hroom hnone))).trans ?_
      rw [hpicking m (leftOn_spec hleft).2.2]
      cases r.mountId <;> rfl
    · refine ends (f := onOnline d) (u := updDrive d (fun r => { r with state := .emptying }) s) ?_ (settled_of_same hs rfl rfl rfl rfl)
      rw [onOnline_loose hr hst ha, hleft, hi]
    · refine ends (f := onOnline d) (u := updDrive d (fun r => { r with state := .free }) s) ?_ (settled_of_same hs rfl rfl rfl rfl)
      rw [onOnline_empty hr hst ha, hi]
    · refine ends (f := onOnline d) (u := updMount id MountRec.undriven (updDrive d (fun r => { r with state := .free, mountId := none }) s)) ?_
        (settled_of_same hs rfl rfl rfl rfl)
      rw [onOnline_empty hr hst ha, hi]
  case limit =>
    refine ⟨fun h => runEvent_ends hheld (arrivalExpired_idle hm h) hs, fun h => runEvent_ends hheld (loadWaitExpired_idle hm h) hs,
      fun hst hlim hres hf ho hre hd hroom hp => ?_⟩
    obtain ⟨acct, heq, hspool⟩ := failAndClose_told (r := .transit) hm hres hf hre hd (by decide) ho hroom (mountPrompt_empty hp _ _)
      (mountPrompt_empty hp _ _)
    refine ⟨_, runEvent_settles hheld ((arrivalExpired_due hm hst hlim).trans heq), ?_⟩
    simp only [settle_mnt, settle_acct, settle_line, settle_neg, settle_host, settle_dir, settle_lane, settle_wear]
    exact ⟨trivial, trivial, hspool, trivial, trivial, trivial, trivial, trivial, trivial⟩

end
end Sys2Proof.Machine


/-! Local sourcing, and the order offers that wait. -/

namespace Sys2Proof.Machine

-- One proof at a time: proofs that wait for each other on threads of their own would reserve more stack than the check allows.
set_option Elab.async false

section
variable {s t : State}

/-! ### An offer that is taken -/

/-- A pick to a drive asks for nothing at its to-location (R114). -/
theorem takeOrder_drive {o : ArmOrder} {d : Nat} (h : o.dst = .drive d) (s : State) : takeOrder o none s = s.ordering o := by
  simp only [takeOrder, h, askDst]
  split <;> (rw [State.ordering, h]; rfl)

/-- A pick to the cell asks for a position there (R114). -/
theorem takeOrder_cell {o : ArmOrder} (h : o.dst = .cell) (hf : o.form ≠ .readOnly) (s : State) :
    takeOrder o none s = askCell (.order s.nextOrder) (s.ordering o) := by
  simp only [takeOrder, h, askDst, if_neg hf]
  rw [State.ordering, h]
  rfl

theorem takeOffer_plain {o : ArmOrder} (h : o.purpose ≠ .audit) (p : Option Nat) (s : State) : takeOffer o p none s = takeOrder o p s := by
  simp only [takeOffer, if_neg h] <;> cases o.mountId <;> rfl

theorem takeOffer_staged {o : ArmOrder} (h : o.purpose ≠ .audit) {id : ReqId} (hi : o.mountId = some id) (p : Option Nat) (st : Stage) (s : State) :
    takeOffer o p (some st) s = enterStage id st (takeOrder o p s) := by
  simp only [takeOffer, if_neg h, hi]

/-- A record as it enters TO DRIVE (R85, R96). -/
def MountRec.driven (m : MountRec) : MountRec := { m with stage := .toDrive, reserved := none }

theorem driven_id (m : MountRec) : m.driven.id = m.id := rfl

theorem sendProgress_other {a : Nat} (h : a ≠ s.addr) (hroom : s.lineRoom = true) (id : ReqId) :
    sendProgress a id s = s.queueing (some a) (.progress id) :=
  (if_neg h).trans (offerTo_plain (b := .progress id) hroom (by simp [Body.kind]) (by simp [Body.kind]))

/-- A record that has told nothing enters TO DRIVE, and PROGRESS is queued for its originator, another station (R85, R96). -/
theorem enterStage_toDrive {id : ReqId} {m : MountRec} (hm : s.mount id = some m) (hr : m.resultSent = .none) (hf : m.failure = none)
    (ho : m.originator ≠ s.addr) (hroom : s.lineRoom = true) :
    enterStage id .toDrive s = (updMount id MountRec.driven s).queueing (some m.originator) (.progress id) := by
  have hreports : m.reports = true := by
    simp only [MountRec.reports, hr, hf]
    rfl
  simp only [enterStage, hm, hreports, if_true]
  exact sendProgress_other (s := updMount id MountRec.driven s) ho hroom id

/-! ### Local sourcing -/

theorem homeOf_spec {v : Volser} {slot : Nat} {e : HomeEntry} (h : s.homeOf v = some (slot, e)) : e.volser = v := by
  have := List.find?_some h
  simpa using this

/-- A record as its reel is taken out of its slot (R97). -/
def MountRec.sourced (slot : Nat) (ring : Bool) (m : MountRec) : MountRec :=
  { m with homeSlot := slot, ring := if ring then .present else .absent }

theorem sourced_id (slot : Nat) (ring : Bool) (m : MountRec) : (m.sourced slot ring).id = m.id := rfl

theorem firstLeg_sourced {m : MountRec} {slot : Nat} {ring : Bool} (h : m.write = false ∨ ring = true) :
    (m.sourced slot ring).firstLeg = ⟨.drive m.drive, .none, none⟩ := by
  have hdetour : (m.sourced slot ring).detour = false := by
    obtain h | h := h
    · simp only [MountRec.detour, MountRec.sourced, h, Bool.false_and]
    · simp only [MountRec.detour, MountRec.sourced, h, if_true, reduceCtorEq, decide_false, Bool.and_false]
  simp only [MountRec.firstLeg, hdetour, Bool.false_eq_true, if_false]
  rfl

/-- The reel of a record is taken out of its slot, and the pick queued to its drive (R97). -/
theorem sourceLocal_taken {id : ReqId} {m : MountRec} {slot : Nat} {e : HomeEntry} (hm : s.mount id = some m)
    (hh : s.homeOf m.volser = some (slot, e)) (he : s.entry slot = some e) (hst : e.state = .home) (hw : m.write = false ∨ e.ring = true)
    (hr : m.resultSent = .none) (hf : m.failure = none) (ho : m.originator ≠ s.addr) (hroom : s.lineRoom = true) :
    sourceLocal id s = (State.ordering { ArmOrder.offer .mountLeg true (.slot slot) (.drive m.drive) .mount with
        cls := some m.cls, mountId := some id, volser := some m.volser }
      (updMount id (fun m => (m.sourced slot e.ring).driven) (setEntry slot { e with state := .out, mountId := some id } s))).queueing
        (some m.originator) (.progress id) := by
  have hv := homeOf_spec hh
  have hgrant : s.takeOutAnswer slot m.volser id = .granted e := takeOutAnswer_home he hv hst
  have hgrant2 : (updMount id (fun m => { m with homeSlot := slot }) s).takeOutAnswer slot m.volser id = .granted e := hgrant
  have hid := (mount_spec hm).2
  have hboth := updMount_updMount (f := fun m => { m with homeSlot := slot })
    (g := fun m => { m with ring := if e.ring then RingState.present else .absent }) (fun _ => rfl) id
    (setEntry slot { e with state := .out, mountId := some id } s)
  have hsource : sourceLocal id s = takeOffer ((m.sourced slot e.ring).leg true (.slot slot) (m.sourced slot e.ring).firstLeg) none (some .toDrive)
      (updMount id (MountRec.sourced slot e.ring) (setEntry slot { e with state := .out, mountId := some id } s)) := by
    simp only [sourceLocal, hm, hh, hgrant, takeOut, hgrant2]
    exact congrArg (takeOffer _ none (some .toDrive)) hboth
  have hms : (updMount id (MountRec.sourced slot e.ring) (setEntry slot { e with state := .out, mountId := some id } s)).mount id
      = some (m.sourced slot e.ring) := mount_updMount_same (s := setEntry slot { e with state := .out, mountId := some id } s) (sourced_id _ _) hm
  have hleg : (m.sourced slot e.ring).leg true (.slot slot) ⟨.drive m.drive, .none, none⟩
      = { ArmOrder.offer .mountLeg true (.slot slot) (.drive m.drive) .mount with
        cls := some m.cls, mountId := some id, volser := some m.volser } := by
    rw [← hid]
    rfl
  rw [hsource, firstLeg_sourced hw, hleg, takeOffer_staged (show Purpose.mountLeg ≠ .audit by decide) (id := id) rfl, takeOrder_drive rfl]
  generalize ({ ArmOrder.offer .mountLeg true (.slot slot) (.drive m.drive) .mount with
        cls := some m.cls, mountId := some id, volser := some m.volser } : ArmOrder) = o
  have hmo : (State.ordering o (updMount id (MountRec.sourced slot e.ring) (setEntry slot { e with state := .out, mountId := some id } s))).mount id
      = some (m.sourced slot e.ring) := hms
  rw [enterStage_toDrive hmo hr hf ho hroom]
  have hdriven := congrArg (·.mnt.mounts) (updMount_updMount (f := MountRec.sourced slot e.ring) (g := MountRec.driven) (sourced_id _ _) id s)
  simp only [updMount] at hdriven
  simp only [updMount, State.ordering, setEntry, State.queueing, hdriven]
  rfl

/-- A local sourcing that is not waiting, or has no place for its order, changes nothing (R97). -/
theorem sourceWaiting_idle {id : ReqId} (h : 12 ≤ s.seq.queue.length ∨ (∃ o p st, .order o p st ∈ s.seq.waiting) ∨ (∃ d, .laneHead d ∈ s.seq.waiting)
      ∨ .sourceLocal id ∉ s.seq.waiting) : sourceWaiting id s = s := by
  refine if_neg fun hb => ?_
  simp only [Bool.and_eq_true, State.orderRoom, decide_eq_true_eq, Bool.not_eq_true', List.contains_iff_mem, List.any_eq_false] at hb
  obtain ⟨hin, hlen, hnone⟩ := hb
  obtain h | ⟨o, p, st, h⟩ | ⟨d, h⟩ | h := h
  · exact absurd (show s.seq.queue.length < 12 from hlen) (by omega)
  · exact hnone _ h rfl
  · exact hnone _ h rfl
  · exact h hin

theorem sourceWaiting_next {id : ReqId} {rest : List WaitingOffer} (h : s.seq.waiting = .sourceLocal id :: rest) (hroom : s.orderRoom = true) :
    sourceWaiting id s = sourceLocal id { s with seq := { s.seq with waiting := rest } } := by
  have hdrop : dropFirst (WaitingOffer.sourceLocal id) s.seq.waiting = rest := by rw [h]; exact if_pos rfl
  have hin : s.seq.waiting.contains (.sourceLocal id) = true := by
    rw [h]
    simp
  simp only [sourceWaiting, hin, hroom, Bool.and_self, if_true, dropOffer, hdrop]

/-! ### A waiting offer -/

theorem takeWaitingOffer_next {w : WaitingOffer} {rest : List WaitingOffer} (h : s.seq.waiting = w :: rest) (hw : w.isOrder = true)
    (hlen : s.seq.queue.length < 12) : takeWaitingOffer s = runOffer w { s with seq := { s.seq with waiting := rest } } := by
  have hfind : s.seq.waiting.find? WaitingOffer.isOrder = some w := by rw [h, List.find?_cons, hw]
  have hdrop : dropFirst w s.seq.waiting = rest := by rw [h]; exact if_pos rfl
  simp only [takeWaitingOffer, hfind, dropOffer, hdrop]
  exact if_pos hlen

theorem recheckOffer_away {o : ArmOrder} (h : o.src ≠ .cell) (s : State) : recheckOffer o s = o := by
  unfold recheckOffer
  split
  next hsrc _ => exact absurd hsrc h
  next => rfl

/-- A waiting pick that takes a returning record's reel home from the cell has its return check as it enters (R7, R108). -/
theorem recheckOffer_home {o : ArmOrder} {id : ReqId} {m : MountRec} (hsrc : o.src = .cell) (hq : o.queuedBy = .mount) (hi : o.mountId = some id)
    (hm : s.mount id = some m) (hback : m.turningBack = true ∨ m.stage = .returning) (hh : m.home = some s.addr) :
    recheckOffer o s = match s.returnCheck m.volser with
      | some k => { o with dst := .slot k, cellUse := .none, routing := none }
      | none => { o with dst := .cell, cellUse := .remove, routing := none } := by
  have hrec : s.recordOf o = some m := by simp only [State.recordOf, ArmOrder.ofMount, hq, decide_true, Bool.true_or, if_true, hi, Option.bind_some, hm]
  have hor : (m.turningBack || decide (m.stage = .returning)) = true := by simpa using hback
  simp only [recheckOffer, hsrc, hrec, hor, if_true, ArmOrder.toDest, State.checkedDest, State.returnDest, hh]
  cases s.returnCheck m.volser <;> rfl

/-- Settles O52: `sourceLocal_taken`, and a waiting offer as `takeOrder` takes it. -/
theorem sourcingAndWaitingOffers : Obligations.SourcingAndWaitingOffers := by
  refine ⟨fun s id m slot e rest hs hheld hroom hw hplace hm hh he hst hring hr hf ho => ?_, fun s id hs hheld h => ?_,
    fun s o rest hs hheld hw hp => ?_⟩
  · intro o t
    refine runEvent_settles hheld ((sourceWaiting_next hw hplace).trans ?_)
    exact sourceLocal_taken (s := { s with seq := { s.seq with waiting := rest } }) hm hh he hst hring hr hf ho hroom
  · exact runEvent_ends hheld (sourceWaiting_idle h) hs
  · intro enters
    have hnext (hlen : s.seq.queue.length < 12) : takeWaitingOffer s
        = takeOffer (recheckOffer o { s with seq := { s.seq with waiting := rest } }) none none { s with seq := { s.seq with waiting := rest } } :=
      takeWaitingOffer_next hw rfl hlen
    refine ⟨fun hlen => ?_, fun hdst hsrc hlen => ?_, fun id m hsrc hform hq hi hm hback hh hlen => ⟨fun k hk => ?_, fun hk => ?_⟩⟩
    · exact runEvent_ends hheld (takeWaitingOffer_full hlen) hs
    · obtain ⟨n, hdst⟩ := hdst
      refine runEvent_settles hheld ((hnext hlen).trans ?_)
      rw [recheckOffer_away hsrc, takeOffer_plain hp, takeOrder_slot hdst]
      rfl
    · refine runEvent_settles hheld ((hnext hlen).trans ?_)
      rw [recheckOffer_home (s := { s with seq := { s.seq with waiting := rest } }) hsrc hq hi hm hback hh,
        show State.returnCheck { s with seq := { s.seq with waiting := rest } } m.volser = some k from hk]
      dsimp only
      rw [takeOffer_plain (by exact hp), takeOrder_slot (k := k) rfl]
      rfl
    · refine runEvent_settles hheld ((hnext hlen).trans ?_)
      rw [recheckOffer_home (s := { s with seq := { s.seq with waiting := rest } }) hsrc hq hi hm hback hh,
        show State.returnCheck { s with seq := { s.seq with waiting := rest } } m.volser = none from hk]
      dsimp only
      rw [takeOffer_plain (by exact hp), takeOrder_cell rfl (by rw [hform]; nofun)]
      rfl

end
end Sys2Proof.Machine


/-! Prompts that end with their records: the fetch expiry and the ring expiry; the other timers of a prompt, and the door. -/

namespace Sys2Proof.Machine

-- One proof at a time: proofs that wait for each other on threads of their own would reserve more stack than the check allows.
set_option Elab.async false

section
variable {s t : State}

/-! ### An ESCALATED prompt that is cleared -/

/-- Two lists of prompts that are the same but for the prompts with a number, the first of which is `p` but for its notice and has no
notice outstanding in the second. -/
def Hushed (p : Prompt) (l l' : List Prompt) : Prop :=
  l'.filter (fun q => q.number ≠ p.number) = l.filter (fun q => q.number ≠ p.number)
    ∧ ∃ q, l'.find? (fun q => q.number = p.number) = some q ∧ q.cellPos = p.cellPos ∧ q.volser = p.volser
      ∧ (q.stage = .escalated → q.notice = .none)

theorem find_updWhere_prompt {l : List Prompt} {n : Nat} {p : Prompt} {f : Prompt → Prompt} (hf : ∀ q, (f q).number = q.number)
    (h : l.find? (fun q => q.number = n) = some p) : (updWhere (fun q => q.number = n) f l).find? (fun q => q.number = n) = some (f p) := by
  have hnum : p.number = n := by simpa using List.find?_some h
  have heq : (fun q : Prompt => decide ((if decide (q.number = n) = true then f q else q).number = n)) = fun q => decide (q.number = n) := by
    funext q
    split
    · rw [hf]
    · rfl
  rw [updWhere, List.find?_map, show ((fun q : Prompt => decide (q.number = n)) ∘ fun q => if decide (q.number = n) = true then f q else q)
    = fun q => decide ((if decide (q.number = n) = true then f q else q).number = n) from rfl, heq, h, Option.map_some, if_pos (decide_eq_true hnum)]

theorem filter_updWhere_prompt (n : Nat) {f : Prompt → Prompt} (hf : ∀ q, (f q).number = q.number) (l : List Prompt) :
    (updWhere (fun q => q.number = n) f l).filter (fun q => q.number ≠ n) = l.filter fun q => q.number ≠ n := by
  rw [← filter_updWhere Prompt.number n f hf l]
  exact (filter_ne _ Prompt.number n).symm

/-- A prompt that loses its notice. -/
def Prompt.hushed (p : Prompt) : Prompt := { p with notice := .none }

theorem hushed_number (p : Prompt) : p.hushed.number = p.number := rfl

theorem hushed_of_loses {p q : Prompt} {l : List Prompt} (h : l.find? (fun q => q.number = p.number) = some q) (hc : q.cellPos = p.cellPos)
    (hv : q.volser = p.volser) : Hushed p l (updWhere (fun q => q.number = p.number) Prompt.hushed l) :=
  ⟨filter_updWhere_prompt _ hushed_number _, q.hushed, find_updWhere_prompt hushed_number h, hc, hv, fun _ => rfl⟩

theorem Hushed.trans {p : Prompt} {l l' l'' : List Prompt} (h1 : Hushed p l l') (h2 : Hushed p l' l'') : Hushed p l l'' :=
  ⟨h2.1.trans h1.1, h2.2⟩

/-- An ESCALATED prompt whose NOTICE has been sent is cleared with a PROMPT CLEARED; no other prompt is (R168). -/
theorem clearEscalated_sent {p : Prompt} (hp : s.prompt p.number = some p) (hn : p.noticeSent)
    (hroom : p.stage = .escalated → s.lineRoom = true) : ∃ l, Hushed p s.prm.prompts l
      ∧ clearEscalated p.number s = { s with line := (s.afterPrompt p).line, prm := { s.prm with prompts := l } } := by
  by_cases hst : p.stage = .escalated
  · refine ⟨_, hushed_of_loses hp rfl rfl, ?_⟩
    have hoffer := offerTx_plain (s := updPrompt p.number Prompt.hushed s) (dst := none) (b := .promptCleared p.number) (hroom hst)
      (by simp [Body.kind]) (by simp [Body.kind])
    simp only [clearEscalated, hp, if_pos hst, hn hst, State.afterPrompt]
    exact hoffer
  · refine ⟨s.prm.prompts, ⟨rfl, p, hp, rfl, rfl, fun e => absurd e hst⟩, ?_⟩
    simp only [clearEscalated, hp, if_neg hst, State.afterPrompt]

/-- A prompt with no notice outstanding is cleared in silence (R168). -/
theorem clearEscalated_silent {p : Prompt} {l : List Prompt} (h : Hushed p l s.prm.prompts) :
    ∃ l', Hushed p s.prm.prompts l' ∧ clearEscalated p.number s = { s with prm := { s.prm with prompts := l' } } := by
  obtain ⟨-, q, hq, hc, hv, hquiet⟩ := h
  have hq' : s.prompt p.number = some q := hq
  by_cases hst : q.stage = .escalated
  · refine ⟨_, hushed_of_loses hq hc hv, ?_⟩
    simp only [clearEscalated, hq', if_pos hst, hquiet hst]
    rfl
  · refine ⟨s.prm.prompts, ⟨rfl, q, hq, hc, hv, hquiet⟩, ?_⟩
    simp only [clearEscalated, hq', if_neg hst]

/-! ### A pick on an answered prompt -/

/-- A prompt's position passes to the pick taken on its answer (R153, R160). -/
theorem handOver_silent {p : Prompt} {l : List Prompt} (h : Hushed p l s.prm.prompts) {i : Nat} (hi : p.cellPos = some i) (n : Nat) :
    handOver p.number n s = { s with prm := { s.prm with
      prompts := l.filter fun q => q.number ≠ p.number
      cells := s.prm.cells.set i (.holding (.order n) (some p.volser)) } } := by
  obtain ⟨l', hl', hclear⟩ := clearEscalated_silent h
  obtain ⟨hfilter, q, hq, hc, hv, -⟩ := h
  have hq' : s.prompt p.number = some q := hq
  have hremove : (l'.filter fun q => q.number != p.number) = l.filter fun q => q.number ≠ p.number :=
    (filter_ne l' Prompt.number p.number).trans (hl'.1.trans hfilter)
  simp only [handOver, hq', hclear, hc, hi, hv, removePrompt, hremove, setCell]

/-- The state with an order taken that takes over the position of an answered prompt. -/
theorem takeOrder_handed {o : ArmOrder} (hd : (∃ k, o.dst = .slot k) ∨ ∃ d, o.dst = .drive d) {p : Prompt} {l : List Prompt}
    (h : Hushed p l s.prm.prompts) {i : Nat} (hi : p.cellPos = some i) :
    takeOrder { o with srcPos := some i } (some p.number) s
      = { s.takenFrom p i o with prm := { (s.takenFrom p i o).prm with prompts := l.filter fun q => q.number ≠ p.number } } := by
  have hask (n : Nat) (t : State) : askDst o.dst n t = t := by obtain ⟨k, e⟩ | ⟨d, e⟩ := hd <;> rw [e] <;> rfl
  have hhand := handOver_silent (s := { s with seq := { s.seq with
      queue := s.seq.queue ++ [{ o with number := s.nextOrder, estimate := s.legEstimate o.src o.dst, srcPos := some i }]
      counter := (s.nextOrder + 1) % 256 } }) h hi s.nextOrder
  simp only [takeOrder, hask, ite_self]
  exact hhand

/-- A record that turns back and returns its reel from the cell (R107). -/
def MountRec.goingHome (m : MountRec) : MountRec := { m with turningBack := true, stage := .returning }

theorem goingHome_id (m : MountRec) : m.goingHome.id = m.id := rfl

theorem goingHome_undriven_id (m : MountRec) : m.goingHome.undriven.id = m.id := rfl

/-- The RING prompt's record turns back from the cell: its drive is given up and its reel picked home, to a slot of this station (R107,
R163). -/
theorem ringReturn_home {id : ReqId} {m : MountRec} {p : Prompt} {l : List Prompt} (hm : s.mount id = some m) (hd : m.driveHeld = true)
    (hh : m.home = some s.addr) {k : Nat} (hk : s.returnCheck m.volser = some k) (hroom : s.orderRoom = true)
    (h : Hushed p l s.prm.prompts) {i : Nat} (hi : p.cellPos = some i) :
    ringReturn id p s = { s with
      mnt := { s.mnt with
        drives := s.mnt.drives.modify m.drive DriveRec.released
        mounts := updWhere (fun x => x.id = id) (fun m => m.goingHome.undriven) s.mnt.mounts }
      seq := (s.takenFrom p i { ArmOrder.offer .returnLeg false .cell (.slot k) .mount with mountId := some id, volser := some m.volser }).seq
      prm := { s.prm with
        prompts := l.filter fun q => q.number ≠ p.number
        cells := s.prm.cells.set i (.holding (.order s.nextOrder) (some p.volser)) } } := by
  obtain ⟨l', hl', hclear⟩ := clearEscalated_silent h
  have hm1 : (updMount id (fun m => m.goingHome) { s with prm := { s.prm with prompts := l' } }).mount id = some m.goingHome :=
    mount_updMount_same goingHome_id hm
  have hrelease := releaseDrive_held hm1 hd
  rw [updMount_updMount goingHome_id] at hrelease
  have hm2 : (updDrive m.drive DriveRec.released (updMount id (fun m => m.goingHome.undriven)
      { s with prm := { s.prm with prompts := l' } })).mount id = some m.goingHome.undriven :=
    mount_updMount_same (f := fun m => m.goingHome.undriven) goingHome_undriven_id hm
  generalize ht : updDrive m.drive DriveRec.released (updMount id (fun m => m.goingHome.undriven)
    { s with prm := { s.prm with prompts := l' } }) = t at hm2
  have hturn : ringReturn id p s = offerOrder ({ ArmOrder.offer .returnLeg false .cell .cell .mount with
      srcPos := p.cellPos, mountId := some id, volser := some m.volser }.toDest (t.checkedDest m.goingHome.undriven))
      (some p.number) .cannot t := by
    have hchanged : releaseDrive id (updMount id (fun m => { m with turningBack := true, stage := .returning })
        { s with prm := { s.prm with prompts := l' } }) = t := hrelease.trans ht
    simp only [ringReturn, hclear, hchanged, hm2]
    rfl
  have hdest : t.checkedDest m.goingHome.undriven = ⟨.slot k, .none, none⟩ := by
    have haddr : t.addr = s.addr := by rw [← ht]; rfl
    have hcheck : t.returnCheck m.volser = some k := by rw [← ht]; exact hk
    simp only [State.checkedDest, State.returnDest, show m.goingHome.undriven.home = some s.addr from hh, haddr, if_true,
      show m.goingHome.undriven.volser = m.volser from rfl, hcheck]
  have hplace : t.orderRoom = true := by rw [← ht]; exact hroom
  have hlt : Hushed p l t.prm.prompts := by rw [← ht]; exact h.trans hl'
  rw [hturn, hdest, offerOrder, if_pos hplace, hi]
  refine (takeOrder_handed (o := { ArmOrder.offer .returnLeg false .cell (.slot k) .mount with mountId := some id, volser := some m.volser })
    (.inl ⟨k, rfl⟩) hlt hi).trans ?_
  rw [← ht]
  rfl

end
end Sys2Proof.Machine


/-! The timers of a prompt, waiting postings, and the door switch. -/

namespace Sys2Proof.Machine

-- One proof at a time: proofs that wait for each other on threads of their own would reserve more stack than the check allows.
set_option Elab.async false

section
variable {s t : State}

/-! ### A record whose FETCH prompt ends without its reel -/

theorem endedPrompt_line (s : State) (p : Prompt) : (s.endedPrompt p).line = (s.afterPrompt p).line := by
  unfold State.endedPrompt State.afterPrompt
  split <;> rfl

theorem failsOpenly_room {m : MountRec} (h : s.failsOpenly m) : s.lineRoom = true := by
  obtain ⟨-, -, -, -, -, hc, hw, hq⟩ := h
  simp only [State.lineRoom, State.txRoom, hw, bne_iff_ne, ne_eq, hc, not_false_eq_true, Bool.and_eq_true, decide_eq_true_eq,
    List.isEmpty_nil, and_true, true_and]
  show s.line.queue.length < 16
  omega

/-- There is room for a report behind a PROMPT CLEARED (R35). -/
theorem failsOpenly_afterPrompt {m : MountRec} (h : s.failsOpenly m) (p : Prompt) (hh : t.host = s.host) (hl : t.line = (s.afterPrompt p).line) :
    t.lineRoom = true := by
  obtain ⟨-, -, -, -, -, hc, hw, hq⟩ := h
  have hline : t.line.waiting = [] ∧ t.line.queue.length < 16 := by
    rw [hl, State.afterPrompt]
    split
    · refine ⟨hw, ?_⟩
      simp only [State.queueing, List.length_append, List.length_cons, List.length_nil]
      omega
    · exact ⟨hw, by omega⟩
  simp only [State.lineRoom, State.txRoom, hh, hline.1, bne_iff_ne, ne_eq, hc, not_false_eq_true, Bool.and_eq_true, decide_eq_true_eq,
    List.isEmpty_nil, and_true, true_and]
  exact hline.2

/-- The only prompt has ended. -/
theorem endedPrompt_prompts {p : Prompt} (h : s.prm.prompts = [p]) : (s.endedPrompt p).prm.prompts = [] := by
  simp [State.endedPrompt, h]

/-- A record fails and closes whose prompt, the only one, has ended (R106, R110, R166). -/
theorem failAndClose_ended {id : ReqId} {m : MountRec} {p : Prompt} {r : FailReason} (hm : s.mount id = some m) (h : s.failsOpenly m)
    (hp : s.prm.prompts = [p]) (hne : r ≠ .revoked) : ∃ acct, failAndClose id r (s.endedPrompt p) = { s with
        line := ((s.afterPrompt p).queueing (some m.originator) (.result id (.failed r) 0)).line
        mnt := { s.mnt with
          drives := s.mnt.drives.modify m.drive DriveRec.released, mounts := s.mnt.mounts.filter fun x => x.id ≠ id }
        seq := { s.seq with waiting := s.seq.waiting.filter fun w => w ≠ .sourceLocal id }
        prm := { (s.endedPrompt p).prm with postings := s.postingsWithout (some id) }
        acct := acct }
      ∧ ∃ a, acct.spool = s.acct.spool ++ [a] ∧ a.mountId = id ∧ a.outcome = .failed ∧ a.reason = some r ∧ a.charge = 0
        ∧ a.sequence = s.acct.counter := by
  have hroom : (s.endedPrompt p).lineRoom = true := failsOpenly_afterPrompt h p rfl (endedPrompt_line s p)
  have hnone (k : PromptKind) : (s.endedPrompt p).mountPrompt id k = none := mountPrompt_empty (endedPrompt_prompts hp) id k
  obtain ⟨hr, hf, ho, hre, hd, -⟩ := h
  obtain ⟨acct, heq, hspool⟩ := failAndClose_told (s := s.endedPrompt p) hm hr hf hre hd hne ho hroom (hnone _) (hnone _)
  refine ⟨acct, heq.trans ?_, hspool⟩
  rw [show (State.queueing (some m.originator) (.result id (.failed r) 0) (s.endedPrompt p)).line
    = ((s.afterPrompt p).queueing (some m.originator) (.result id (.failed r) 0)).line by
      simp only [State.queueing, endedPrompt_line]]
  rfl

/-- An arm that has been given what it can have is given nothing more (R120, R121). -/
theorem settle_seq_armed (h : s.armSettled = true) (h1 : t.seq.arm = s.seq.arm) (h2 : t.seq.inArm = s.seq.inArm)
    (h3 : t.seq.queue = s.seq.queue) (h4 : t.prm.doorOpen = s.prm.doorOpen) (k : Bool) : (settle k t).seq = t.seq := by
  rw [settle_seq, selectArm_of_settled ((armSettled_congr h1 h2 h3 h4).trans h)]

/-- What the event ends with once such a record has closed. -/
theorem failAndClose_ended_outcome {id : ReqId} {m : MountRec} {p : Prompt} {r : FailReason} (hm : s.mount id = some m) (h : s.failsOpenly m)
    (hp : s.prm.prompts = [p]) (hid : p.mountId = some id) (hne : r ≠ .revoked) (harm : s.armSettled = true) (k : Bool) :
    s.failedClosed m r (settle k (failAndClose id r (s.endedPrompt p))) ∧ s.lostPrompt p (settle k (failAndClose id r (s.endedPrompt p)))
      ∧ (settle k (failAndClose id r (s.endedPrompt p))).line = ((s.afterPrompt p).queueing (some m.originator) (.result id (.failed r) 0)).line
      ∧ (settle k (failAndClose id r (s.endedPrompt p))).dir = s.dir := by
  have hmid := (mount_spec hm).2
  obtain ⟨acct, heq, hspool⟩ := failAndClose_ended hm h hp hne
  rw [heq]
  refine ⟨⟨?_, ?_, ?_, ?_, ?_, ?_, ?_, ?_⟩, ⟨?_, ?_, ?_, ?_, ?_⟩, ?_, ?_⟩
  · rw [settle_mnt, hmid]
  · rw [settle_mnt]
  · rw [settle_acct, hmid]
    exact hspool
  · refine (settle_seq_armed harm ?_ ?_ ?_ ?_ k).trans (by rw [hmid])
    all_goals rfl
  · rw [settle_neg]
  · rw [settle_host]
  · rw [settle_lane]
  · rw [settle_wear]
  · rw [settle_prompts]
    rfl
  · rw [settle_cells]
    rfl
  · rw [settle_prm]
    rw [refreshDisplay_eq]
    rfl
  · rw [settle_prm, refreshDisplay_eq, hid]
  · rw [settle_remote]
    rfl
  · rw [settle_line]
  · rw [settle_dir]

/-! ### A record whose RING prompt ends without its ring -/

/-- A record that has failed NO RING and goes home without its drive (R107, R163). -/
def MountRec.noRing (m : MountRec) : MountRec := { m with
  failure := some (m.failure.getD .noRing), resultSent := .failed, turningBack := true, stage := .returning, driveHeld := false }

theorem noRing_id (m : MountRec) : m.noRing.id = m.id := rfl

theorem noRing_mounts (id : ReqId) (s : State) : updWhere (fun x => decide (x.id = id)) (fun m => m.goingHome.undriven)
    (updWhere (fun x => decide (x.id = id)) (MountRec.failedAs .noRing) s.mnt.mounts)
      = updWhere (fun x => x.id = id) MountRec.noRing s.mnt.mounts :=
  congrArg (·.mnt.mounts) (updMount_updMount (f := MountRec.failedAs .noRing) (g := fun m => m.goingHome.undriven) (failedAs_id _) id s)

/-- The record of a RING prompt that ends by CANNOT or its expiry fails NO RING and goes home, to a slot of this station (R107, R163). -/
theorem ringFailed_home {id : ReqId} {m : MountRec} {p : Prompt} (hp : s.prompt p.number = some p) (hn : p.noticeSent)
    (hid : p.mountId = some id) (hm : s.mount id = some m) (h : s.failsOpenly m) (hh : m.home = some s.addr) {k : Nat}
    (hk : s.returnCheck m.volser = some k) (hroom : s.orderRoom = true) {i : Nat} (hi : p.cellPos = some i) :
    ringFailed p (clearEscalated p.number s) = { (((s.afterPrompt p).queueing (some m.originator) (.result id (.failed .noRing) 0)).takenFrom p i
      { ArmOrder.offer .returnLeg false .cell (.slot k) .mount with mountId := some id, volser := some m.volser }) with
      mnt := { s.mnt with
        drives := s.mnt.drives.modify m.drive DriveRec.released
        mounts := updWhere (fun x => x.id = id) MountRec.noRing s.mnt.mounts } } := by
  obtain ⟨l, hl, hclear⟩ := clearEscalated_sent hp hn fun _ => failsOpenly_room h
  have hline := failsOpenly_afterPrompt (t := { s with line := (s.afterPrompt p).line, prm := { s.prm with prompts := l } }) h p rfl rfl
  obtain ⟨hr, hf, ho, -, hd, -⟩ := h
  have hfail := failRecord_tells (s := { s with line := (s.afterPrompt p).line, prm := { s.prm with prompts := l } }) hm hr hf (r := .noRing)
    (by decide) ho hline
  have hm1 : ((updMount id (MountRec.failedAs .noRing) { s with line := (s.afterPrompt p).line, prm := { s.prm with prompts := l } }).queueing
      (some m.originator) (.result id (.failed .noRing) 0)).mount id = some (m.failedAs .noRing) := mount_updMount_same (failedAs_id _) hm
  have hreturn := ringReturn_home hm1 hd hh hk hroom (p := p) (l := s.prm.prompts) hl hi
  rw [ringFailed, hid, hclear]
  dsimp only
  rw [hfail, hreturn]
  have hafter : s.afterPrompt p = { s with line := (s.afterPrompt p).line } := by
    rw [State.afterPrompt]
    split <;> rfl
  rw [hafter]
  simp only [updMount, State.queueing, State.takenFrom, noRing_mounts]
  rfl

/-! ### The only prompt ends -/

theorem clearEscalated_idle {p : Prompt} (hp : s.prompt p.number = some p) (hst : p.stage ≠ .escalated) : clearEscalated p.number s = s := by
  simp only [clearEscalated, hp, if_neg hst]

theorem prompt_only {p : Prompt} (h : s.prm.prompts = [p]) : s.prompt p.number = some p := by
  simp [State.prompt, h]

/-- The only prompt ends, whoever waits for its position (R153). -/
theorem endPrompt_only {p : Prompt} (h : s.prm.prompts = [p]) (hst : p.stage ≠ .escalated) :
    ∃ seq prm, endPrompt p.number s = { s with seq := seq, prm := prm } ∧ prm.prompts = [] := by
  have hremove : removePrompt p.number s = { s with prm := { s.prm with prompts := [] } } := by simp [removePrompt, h]
  have hgrant (i : Nat) (w : Holder) (t : State) (ht : t.prm.prompts = []) : (grantCell i w t).prm.prompts = [] := by
    cases w with
    | order n => exact ht
    | prompt n =>
      show updWhere _ _ t.prm.prompts = []
      rw [ht]
      rfl
  simp only [endPrompt, prompt_only h, clearEscalated_idle (prompt_only h) hst, hremove]
  cases p.cellPos with
  | none => exact ⟨s.seq, _, rfl, rfl⟩
  | some i =>
    dsimp only
    unfold freeCell
    split
    · exact ⟨s.seq, _, rfl, rfl⟩
    · next w rest _ =>
      refine ⟨_, _, (grantCell_frame i w _).trans rfl, hgrant i w _ rfl⟩

/-- What an order asks for at its to-location changes no prompt (R114). -/
theorem askDst_frame (dst : Loc) (n : Nat) (s : State) : ∃ seq lane prm, askDst dst n s = { s with seq := seq, lane := lane, prm := prm }
    ∧ prm.prompts = s.prm.prompts := by
  cases dst with
  | slot k => exact ⟨s.seq, s.lane, s.prm, rfl, rfl⟩
  | drive d => exact ⟨s.seq, s.lane, s.prm, rfl, rfl⟩
  | cell =>
    simp only [askDst, askCell]
    split
    · split
      · exact ⟨_, s.lane, _, rfl, rfl⟩
      · exact ⟨_, s.lane, _, rfl, rfl⟩
    · exact ⟨_, s.lane, _, rfl, rfl⟩
  | mouth d =>
    simp only [askDst, askCredit]
    split
    · cases d <;> exact ⟨_, _, s.prm, rfl, rfl⟩
    · split
      · cases d <;> exact ⟨s.seq, _, s.prm, rfl, rfl⟩
      · exact ⟨s.seq, s.lane, s.prm, rfl, rfl⟩

/-- An order taken on the answer of the only prompt leaves no prompt (R160). -/
theorem takeOrder_only {p : Prompt} (h : s.prm.prompts = [p]) (hst : p.stage ≠ .escalated) (o : ArmOrder) :
    ∃ seq lane prm, takeOrder o (some p.number) s = { s with seq := seq, lane := lane, prm := prm } ∧ prm.prompts = [] := by
  have hhand (q : Sequencer) (n : Nat) : ∃ prm, handOver p.number n { s with seq := q } = { s with seq := q, prm := prm } ∧ prm.prompts = [] := by
    have hp : State.prompt { s with seq := q } p.number = some p := prompt_only h
    have hremove : removePrompt p.number { s with seq := q } = { s with seq := q, prm := { s.prm with prompts := [] } } := by
      simp [removePrompt, h]
    simp only [handOver, hp, clearEscalated_idle hp hst, hremove]
    cases p.cellPos with
    | none => exact ⟨_, rfl, rfl⟩
    | some i => exact ⟨_, rfl, rfl⟩
  obtain ⟨prm, heq, hnone⟩ := hhand { s.seq with
    queue := s.seq.queue ++ [{ o with number := s.nextOrder, estimate := s.legEstimate o.src o.dst }]
    counter := wrapSucc 256 s.nextOrder } s.nextOrder
  simp only [takeOrder, heq]
  split
  · exact ⟨_, s.lane, prm, rfl, hnone⟩
  · obtain ⟨seq', lane', prm', hask, hsame⟩ := askDst_frame o.dst s.nextOrder { s with
      seq := { s.seq with
        queue := s.seq.queue ++ [{ o with number := s.nextOrder, estimate := s.legEstimate o.src o.dst }]
        counter := wrapSucc 256 s.nextOrder }
      prm := prm }
    exact ⟨seq', lane', prm', hask, hsame.trans hnone⟩

/-- The RING prompt's record turns back from the cell, wherever its home is, the prompt the only one (R107, R163). -/
theorem ringReturn_only {id : ReqId} {m : MountRec} {p : Prompt} (hm : s.mount id = some m) (hd : m.driveHeld = true)
    (hroom : s.orderRoom = true) (h : s.prm.prompts = [p]) (hst : p.stage ≠ .escalated) :
    ∃ seq lane prm, ringReturn id p s = { s with
      mnt := { s.mnt with
        drives := s.mnt.drives.modify m.drive DriveRec.released
        mounts := updWhere (fun x => x.id = id) (fun m => m.goingHome.undriven) s.mnt.mounts }
      seq := seq, lane := lane, prm := prm } ∧ prm.prompts = [] := by
  have hm1 : (updMount id MountRec.goingHome s).mount id = some m.goingHome := mount_updMount_same goingHome_id hm
  have hrelease := releaseDrive_held hm1 hd
  rw [updMount_updMount goingHome_id] at hrelease
  have hm2 : (updDrive m.drive DriveRec.released (updMount id (fun m => m.goingHome.undriven) s)).mount id = some m.goingHome.undriven :=
    mount_updMount_same (s := s) (f := fun m => m.goingHome.undriven) goingHome_undriven_id hm
  have hchanged : releaseDrive id (updMount id (fun m => { m with turningBack := true, stage := .returning }) s)
      = updDrive m.drive DriveRec.released (updMount id (fun m => m.goingHome.undriven) s) := hrelease
  simp only [ringReturn, clearEscalated_idle (prompt_only h) hst, hchanged, hm2, offerOrder]
  refine Exists.imp ?_ (takeOrder_only (s := updDrive m.drive DriveRec.released (updMount id (fun m => m.goingHome.undriven) s)) h hst
    (ArmOrder.toDest { ArmOrder.offer .returnLeg false .cell .cell .mount with
      srcPos := p.cellPos, mountId := some id, volser := some m.goingHome.undriven.volser }
      ((updDrive m.drive DriveRec.released (updMount id (fun m => m.goingHome.undriven) s)).checkedDest m.goingHome.undriven)))
  rintro seq ⟨lane, prm, heq, hnone⟩
  exact ⟨lane, prm, (if_pos hroom).trans heq, hnone⟩

end
end Sys2Proof.Machine


/-! The timers of a prompt, waiting postings, and the door switch: the statement. -/

namespace Sys2Proof.Machine

-- One proof at a time: proofs that wait for each other on threads of their own would reserve more stack than the check allows.
set_option Elab.async false

section
variable {s t : State}

/-! ### The timers of a prompt -/

theorem takePosting_full (h : 20 ≤ s.openPrompts ∨ s.prm.postings = []) : takePosting s = s := by
  unfold takePosting
  split
  · rfl
  · next heq =>
    obtain h | h := h
    · exact if_neg (not_lt.mpr h)
    · rw [h] at heq
      cases heq

theorem takePosting_next {p : Prompt} {rest : List Prompt} (h : s.prm.postings = p :: rest) (hopen : s.openPrompts < 20) :
    takePosting s = enterPosting p { s with prm := { s.prm with postings := rest } } := by
  rw [takePosting, h]
  exact if_pos hopen

theorem reminded_due {p : Prompt} {n t : Nat} (hp : s.prompt n = some p) (ht : p.timerStart = some t) (ha : p.answer = .none)
    (hst : p.stage = .queued) (hdue : t + s.timers.reminder ≤ s.clock) (hlt : s.timers.reminder < s.timers.escalation) :
    reminded n s = updPrompt n (fun p => { p with stage := .reminded }) s := by
  simp only [reminded, hp, ht]
  exact if_pos ⟨hst, ha, decide_eq_true hdue, hlt⟩

theorem reminded_idle {p : Prompt} {n t : Nat} (hp : s.prompt n = some p) (ht : p.timerStart = some t)
    (h : p.stage ≠ .queued ∨ s.clock < t + s.timers.reminder) : reminded n s = s := by
  simp only [reminded, hp, ht]
  refine if_neg ?_
  rintro ⟨h1, -, h3, -⟩
  obtain h | h := h
  · exact h h1
  · exact absurd (of_decide_eq_true h3) (not_le.mpr h)

/-- A PROMPT NOTICE that enters at once leaves its prompt ESCALATED, the notice SENT (R167, R168). -/
theorem escalated_due {p : Prompt} {n t : Nat} (hp : s.prompt n = some p) (ht : p.timerStart = some t) (ha : p.answer = .none)
    (hst : p.stage = .queued ∨ p.stage = .reminded) (hdue : t + s.timers.escalation ≤ s.clock) (hroom : s.lineRoom = true) :
    escalated n s = (updPrompt n (fun q => { q with stage := .escalated, notice := .sent }) s).queueing none (.promptNotice n p.kind p.volser) := by
  have hentered := frameEntered_promptNotice (f := ⟨none, .promptNotice n p.kind p.volser, false, 0, false⟩) rfl
    (updPrompt n (fun q => { q with stage := .escalated, notice := .offered }) s)
  have hboth : updPrompt n (fun q => if q.notice = .offered then { q with notice := .sent } else q)
      (updPrompt n (fun q => { q with stage := .escalated, notice := .offered }) s)
      = updPrompt n (fun q => { q with stage := .escalated, notice := .sent }) s := by
    have hl : updWhere (fun q : Prompt => q.number = n) (fun q => if q.notice = .offered then { q with notice := .sent } else q)
        (updWhere (fun q => q.number = n) (fun q => { q with stage := .escalated, notice := .offered }) s.prm.prompts)
        = updWhere (fun q => q.number = n) (fun q => { q with stage := .escalated, notice := .sent }) s.prm.prompts := by
      simp only [updWhere, List.map_map]
      refine List.map_congr_left fun q _ => ?_
      by_cases hq : q.number = n <;> simp [hq]
    simp only [updPrompt, hl]
  have hoffer := offerTx_queueing (s := updPrompt n (fun q => { q with stage := .escalated, notice := .offered }) s) (dst := none)
    (b := .promptNotice n p.kind p.volser) hroom (by simp [Body.kind])
  rw [hentered, hboth] at hoffer
  simp only [escalated, hp, ht]
  exact (if_pos ⟨hst, ha, decide_eq_true hdue⟩).trans hoffer

theorem escalated_idle {p : Prompt} {n t : Nat} (hp : s.prompt n = some p) (ht : p.timerStart = some t)
    (h : s.clock < t + s.timers.escalation) : escalated n s = s := by
  simp only [escalated, hp, ht]
  exact if_neg fun ⟨_, _, h3⟩ => absurd (of_decide_eq_true h3) (not_le.mpr h)

theorem fetchExpired_idle {p : Prompt} {n : Nat} (hp : s.prompt n = some p) (h : s.clock < p.posted + s.timers.fetchExpiry) :
    fetchExpired n s = s := by
  simp only [fetchExpired, hp]
  exact if_neg fun ⟨_, _, h3⟩ => absurd (of_decide_eq_true h3) (not_le.mpr h)

theorem ringExpired_idle {p : Prompt} {n : Nat} (hp : s.prompt n = some p) (h : s.clock < p.posted + s.timers.ringExpiry) :
    ringExpired n s = s := by
  simp only [ringExpired, hp]
  exact if_neg fun ⟨_, _, h3⟩ => absurd (of_decide_eq_true h3) (not_le.mpr h)

theorem fetchExpired_due {p : Prompt} {n : Nat} {id : ReqId} (hp : s.prompt n = some p) (hk : p.kind = .fetch) (ha : p.answer = .none)
    (hid : p.mountId = some id) (hdue : p.posted + s.timers.fetchExpiry ≤ s.clock) :
    fetchExpired n s = failAndClose id .fetchTimeout (endPrompt p.number s) := by
  simp only [fetchExpired, hp]
  refine (if_pos ⟨hk, ha, decide_eq_true hdue⟩).trans ?_
  simp only [fetchFailed, hid]

theorem ringExpired_due {p : Prompt} {n : Nat} (hp : s.prompt n = some p) (hk : p.kind = .ring) (ha : p.answer = .none)
    (hdue : p.posted + s.timers.ringExpiry ≤ s.clock) : ringExpired n s = ringFailed p (clearEscalated n s) := by
  simp only [ringExpired, hp]
  exact if_pos ⟨hk, ha, decide_eq_true hdue⟩

/-- The record of a RING prompt that has expired, the only one, wherever its home is (R107, R163). -/
theorem ringFailed_only {id : ReqId} {m : MountRec} {p : Prompt} (h : s.prm.prompts = [p]) (hst : p.stage ≠ .escalated)
    (hid : p.mountId = some id) (hm : s.mount id = some m) (hr : m.resultSent = .none) (hf : m.failure = none) (ho : m.originator ≠ s.addr)
    (hd : m.driveHeld = true) (hline : s.lineRoom = true) (hroom : s.orderRoom = true) :
    ∃ seq lane prm, ringFailed p (clearEscalated p.number s) = { s with
      line := (s.queueing (some m.originator) (.result id (.failed .noRing) 0)).line
      mnt := { s.mnt with
        drives := s.mnt.drives.modify m.drive DriveRec.released
        mounts := updWhere (fun x => x.id = id) MountRec.noRing s.mnt.mounts }
      seq := seq, lane := lane, prm := prm } ∧ prm.prompts = [] := by
  have hfail := failRecord_tells hm hr hf (r := .noRing) (by decide) ho hline
  have hm1 : ((updMount id (MountRec.failedAs .noRing) s).queueing (some m.originator) (.result id (.failed .noRing) 0)).mount id
      = some (m.failedAs .noRing) := mount_updMount_same (failedAs_id _) hm
  obtain ⟨seq, lane, prm, heq, hnone⟩ := ringReturn_only (p := p) hm1 hd hroom h hst
  refine ⟨seq, lane, prm, ?_, hnone⟩
  rw [ringFailed, hid, clearEscalated_idle (prompt_only h) hst]
  dsimp only
  rw [hfail, heq]
  simp only [updMount, State.queueing, noRing_mounts]
  rfl

/-- Settles O58: each expiry due and not due, and the records that end with their prompts. -/
theorem doorAndPromptTimers : Obligations.DoorAndPromptTimers := by
  refine ⟨fun s b => rfl, fun s hs hheld => ⟨fun h => runEvent_ends hheld (takePosting_full h) hs, fun p rest i hp hopen hk hw hi hn => ?posting⟩,
    fun s p id m hs hheld hp ha hid hm ho hn => ?records, fun s p t hs hheld hp ht ha => ?timers⟩
  case posting =>
    exact runEvent_settles hheld ((takePosting_next hp hopen).trans
      (enterPosting_fetch (s := { s with prm := { s.prm with postings := rest } }) hk hw hi hn))
  case records =>
    intro line
    refine ⟨fun hk hdue hw hone => ?_, fun i k hk hdue hi hroom hh hcheck => ?_⟩
    · have hend : endPrompt p.number s = s.endedPrompt p := endPrompt_eq hp hw fun e => ⟨hn e, failsOpenly_room ho⟩
      have harm : s.armSettled = true := (Bool.and_eq_true_iff.mp hs).1
      refine ⟨_, runEvent_settles hheld ((fetchExpired_due hp hk ha hid hdue).trans (by rw [hend])), ?_⟩
      exact failAndClose_ended_outcome hm ho hone hid (by decide) harm false
    · intro t
      exact runEvent_settles hheld ((ringExpired_due hp hk ha hdue).trans (ringFailed_home hp hn hid hm ho hh hcheck hroom hi))
  case timers =>
    intro n stage
    refine ⟨fun hst hdue hlt => runEvent_settles hheld (reminded_due hp ht ha hst hdue hlt),
      fun h => runEvent_ends hheld (reminded_idle hp ht h) hs,
      fun hst hdue hroom => runEvent_settles hheld (escalated_due hp ht ha hst hdue hroom),
      fun h => runEvent_ends hheld (escalated_idle hp ht h) hs, fun h => runEvent_ends hheld (fetchExpired_idle hp h) hs,
      fun h => runEvent_ends hheld (ringExpired_idle hp h) hs, fun id m hid hm hr hf ho hre hd hline hst hone => ⟨fun hk hdue => ?_, fun hk hdue hroom => ?_⟩⟩
    · obtain ⟨seq, prm, hend, hnone⟩ := endPrompt_only hone hst
      have hempty (k : PromptKind) : State.mountPrompt { s with seq := seq, prm := prm } id k = none := mountPrompt_empty hnone id k
      obtain ⟨acct, heq, hspool⟩ := failAndClose_told (s := { s with seq := seq, prm := prm }) (r := .fetchTimeout) hm hr hf hre hd (by decide) ho
        hline (hempty _) (hempty _)
      refine ⟨_, runEvent_settles hheld ((fetchExpired_due hp hk ha hid hdue).trans (by rw [hend, heq])), ?_⟩
      obtain ⟨a, h1, h2, h3, h4, h5, -⟩ := hspool
      simp only [settle_mnt, settle_acct, settle_line, settle_neg, settle_host, settle_dir, settle_lane, settle_wear, settle_prompts]
      exact ⟨hnone, trivial, trivial, ⟨a, h1, h2, h3, h4, h5⟩, rfl, trivial, trivial, trivial, trivial, trivial⟩
    · obtain ⟨seq, lane, prm, heq, hnone⟩ := ringFailed_only hone hst hid hm hr hf ho hd hline hroom
      refine ⟨_, runEvent_settles hheld ((ringExpired_due hp hk ha hdue).trans heq), ?_⟩
      have hmount (x : ReqId) : (settle false ({ s with
          line := (s.queueing (some m.originator) (.result id (.failed .noRing) 0)).line
          mnt := { s.mnt with
            drives := s.mnt.drives.modify m.drive DriveRec.released
            mounts := updWhere (fun x => x.id = id) MountRec.noRing s.mnt.mounts }
          seq := seq, lane := lane, prm := prm } : State)).mount x = (updMount id MountRec.noRing s).mount x := by
        simp only [State.mount, settle_mnt]
        rfl
      rw [hmount id, mount_updMount_same noRing_id hm]
      simp only [settle_mnt, settle_acct, settle_line, settle_neg, settle_host, settle_dir, settle_wear, settle_prompts]
      refine ⟨hnone, ?_, fun x hx => (hmount x).trans (mount_updMount_other noRing_id hx s), trivial, trivial, trivial, trivial, trivial, trivial, trivial⟩
      rw [MountRec.noRing, hf]
      rfl

end
end Sys2Proof.Machine


/-! The keys: a catalogue with two entries for one slot, in which CANNOT marks no reel MISSING. -/

namespace Sys2Proof.Machine

-- One proof at a time: proofs that wait for each other on threads of their own would reserve more stack than the check allows.
set_option Elab.async false

/-! ### Two entries for one slot -/

/-- The reel found unreadable. -/
def soughtVolser : Volser := ⟨2, 2, 2, 2, 2, 2⟩

/-- A reel HOME. -/
def homeEntryOf (v : Volser) : HomeEntry := ⟨v, 0, false, .home, none⟩

/-- A catalogue that holds slot 0 twice: `homeOf` finds the second entry by its volser, `entry` the first by its slot. No step leaves such
a catalogue (O7), but a settled state may have it. -/
def doubledCatalog : Table HomeEntry := [(0, homeEntryOf ⟨1, 1, 1, 1, 1, 1⟩), (0, homeEntryOf soughtVolser)]

/-- The UNREADABLE prompt of the sought reel, with no position and no mount. -/
def unreadableAlone : Prompt := Prompt.blank .unreadable soughtVolser

/-- A station after device reset, with the doubled catalogue, and the UNREADABLE prompt shown. -/
def doubled : State :=
  let s := State.resetWith ⟨⟨5, 3, true, true⟩, false, false⟩ []
  { s with
    dir := { s.dir with catalog := doubledCatalog }
    prm := { s.prm with prompts := [unreadableAlone], shown := some 0 } }

theorem doubled_settled : doubled.settled = true := by decide

theorem doubled_prompt : doubled.prompt 0 = some unreadableAlone := by decide

theorem doubled_homeOf : doubled.homeOf soughtVolser = some (0, homeEntryOf soughtVolser) := by decide

/-- CANNOT leaves the doubled catalogue as it is: the entry that `markMissing` reads holds another volser. -/
theorem keyCannot_doubled : (keyCannot doubled).dir.catalog = doubledCatalog := by decide

theorem exec_cannotKey {s : State} (h : s.pins.resetHeld = false) : exec .cannotKey s = .next (settle true (keyCannot s)) := by
  show runKey keyCannot s = _
  rw [runKey, h]
  rfl

/-- Refutes O57: its clause for CANNOT on an UNREADABLE prompt writes MISSING over the entry that holds the prompt's volser, whatever entry
the slot has; with slot 0 in the catalogue twice the key changes no entry. -/
theorem not_keysAnswerTheShownPrompt : ¬ Obligations.KeysAnswerTheShownPrompt := by
  rintro ⟨-, hkeys, -⟩
  obtain ⟨-, -, hconfirmed, -⟩ := hkeys doubled unreadableAlone doubled_settled rfl rfl doubled_prompt
  obtain ⟨-, -, hunreadable, -⟩ := hconfirmed rfl nofun nofun rfl (by decide)
  obtain ⟨hcannot, -⟩ := hunreadable rfl nofun
  rw [exec_cannotKey rfl] at hcannot
  have hdir := congrArg State.dir (Host.Outcome.next.inj hcannot)
  rw [settle_dir, settle_dir] at hdir
  have hcatalog := congrArg (·.catalog) hdir
  rw [show unreadableAlone.volser = soughtVolser from rfl, doubled_homeOf] at hcatalog
  exact absurd (keyCannot_doubled.symm.trans hcatalog) (by decide)

end Sys2Proof.Machine


/-! A HELLO with the station's own address: what the frames discarded from the line of waiting ones start. -/

namespace Sys2Proof.Machine

-- One proof at a time: proofs that wait for each other on threads of their own would reserve more stack than the check allows.
set_option Elab.async false

section
variable {s t : State}

/-! ### What one frame's entry starts, record by record -/

/-- A LOCATE for a request. -/
def TxFrame.locates (id : ReqId) (g : TxFrame) : Bool := match g.body with
  | .locate i _ => id = i
  | _ => false

/-- An OFFER for a request. -/
def TxFrame.offers (id : ReqId) (g : TxFrame) : Bool := match g.body with
  | .offer i _ _ => id = i
  | _ => false

/-- An AWARD of a request to a station. -/
def TxFrame.awards (id : ReqId) (awardee : Option Nat) (g : TxFrame) : Bool := match g.body with
  | .award i _ _ => id = i && awardee = g.dst
  | _ => false

/-- A FETCH for a mount. -/
def TxFrame.fetches (id : ReqId) (g : TxFrame) : Bool := match g.body with
  | .fetch i _ _ _ _ => id = i
  | _ => false

/-- A PROMPT NOTICE of a prompt. -/
def TxFrame.notifies (n : Nat) (g : TxFrame) : Bool := match g.body with
  | .promptNotice i _ _ => n = i
  | _ => false

theorem locates_iff (id : ReqId) (g : TxFrame) : g.locates id = true ↔ ∃ v, g.body = .locate id v := by
  cases h : g.body <;> simp [TxFrame.locates, h, eq_comm]

theorem offers_iff (id : ReqId) (g : TxFrame) : g.offers id = true ↔ ∃ q k, g.body = .offer id q k := by
  cases h : g.body <;> simp [TxFrame.offers, h, eq_comm]

theorem awards_iff (id : ReqId) (a : Option Nat) (g : TxFrame) : g.awards id a = true ↔ g.dst = a ∧ ∃ q k, g.body = .award id q k := by
  cases h : g.body <;> simp [TxFrame.awards, h, eq_comm (a := id), eq_comm (a := a), and_comm]

theorem fetches_iff (id : ReqId) (g : TxFrame) : g.fetches id = true ↔ ∃ v a b c, g.body = .fetch id v a b c := by
  cases h : g.body <;> simp [TxFrame.fetches, h, eq_comm]

theorem notifies_iff (n : Nat) (g : TxFrame) : g.notifies n = true ↔ ∃ k v, g.body = .promptNotice n k v := by
  cases h : g.body <;> simp [TxFrame.notifies, h, eq_comm]

/-- A request that waits for its LOCATE, OFFER or AWARD to enter, as frames enter of which some are its own (R51, R53, R57). -/
def OriginRec.started (w : Timers) (located offered awarded : Bool) (o : OriginRec) : OriginRec := { o with
  locateWindow := bif o.ended.isNone && o.state = .locating && located then some w.locateWindow else o.locateWindow
  bidWindow := bif o.ended.isNone && o.state = .offered && offered then some w.bidWindow else o.bidWindow
  awardAnswer := bif o.ended.isNone && o.state = .awarding && awarded then some w.awardAnswer else o.awardAnswer }

/-- A mount record as frames enter of which some are its FETCH (R98). -/
def MountRec.started (w : Timers) (fetched : Bool) (m : MountRec) : MountRec := { m with
  arrivalLimit := bif m.stage = .sourcing && fetched then some w.arrivalLimit else m.arrivalLimit }

/-- A prompt as frames enter of which some are its PROMPT NOTICE (R168). -/
def Prompt.started (notified : Bool) (p : Prompt) : Prompt := { p with
  notice := bif p.notice = .offered && notified then .sent else p.notice }

/-- The undelivered deposits of a side as a frame enters the queue (R150). -/
def depositsLeft (side : Nat → Option Side) (d : Side) (l : List Routing) (g : TxFrame) : List Routing :=
  match g.body with
  | .deposit r => if g.resend = true ∧ g.dst.bind side = some d then dropFirst r l else l
  | _ => l

/-- The state as the frames of a list have entered. -/
def State.startedBy (s : State) (l : List TxFrame) : State := { s with
  neg := { s.neg with origins := s.neg.origins.map (fun o =>
    o.started s.timers (l.any (TxFrame.locates o.id)) (l.any (TxFrame.offers o.id)) (l.any (TxFrame.awards o.id o.awardee))) }
  mnt := { s.mnt with mounts := s.mnt.mounts.map (fun m => m.started s.timers (l.any (TxFrame.fetches m.id))) }
  prm := { s.prm with prompts := s.prm.prompts.map (fun p => p.started (l.any (TxFrame.notifies p.number))) }
  lane := { s.lane with
    west := { s.lane.west with undelivered := l.foldl (depositsLeft s.sideOf .west) s.lane.west.undelivered }
    east := { s.lane.east with undelivered := l.foldl (depositsLeft s.sideOf .east) s.lane.east.undelivered } } }

theorem origin_started_none (w : Timers) (o : OriginRec) : o.started w false false false = o := by
  simp only [OriginRec.started, Bool.and_false, cond_false]

theorem mount_started_none (w : Timers) (m : MountRec) : m.started w false = m := by
  simp only [MountRec.started, Bool.and_false, cond_false]

theorem prompt_started_none (p : Prompt) : p.started false = p := by
  simp only [Prompt.started, Bool.and_false, cond_false]

theorem cond_started {α : Type} (c a b : Bool) (x y : α) :
    (bif c && b then x else bif c && a then x else y) = bif c && (a || b) then x else y := by
  cases c <;> cases a <;> cases b <;> rfl

theorem origin_started_started (w : Timers) (a b c a' b' c' : Bool) (o : OriginRec) :
    (o.started w a b c).started w a' b' c' = o.started w (a || a') (b || b') (c || c') := by
  simp only [OriginRec.started]
  congr 1 <;> exact cond_started ..

theorem mount_started_started (w : Timers) (a b : Bool) (m : MountRec) : (m.started w a).started w b = m.started w (a || b) := by
  simp only [MountRec.started]
  congr 1
  exact cond_started ..

theorem prompt_started_started (a b : Bool) (p : Prompt) : (p.started a).started b = p.started (a || b) := by
  obtain ⟨⟩ := p
  simp only [Prompt.started]
  congr 1
  next notice => cases a <;> cases b <;> cases notice <;> rfl

/-- A change of the entries with a key, as a change of all that takes note of the key. -/
theorem updWhere_started {α κ : Type} [DecidableEq κ] (key : α → κ) (k : κ) {f : α → α} {g : Bool → α → α} (ht : ∀ x, g true x = f x)
    (hf : ∀ x, g false x = x) (l : List α) : updWhere (fun x => decide (key x = k)) f l = l.map fun x => g (decide (key x = k)) x := by
  refine List.map_congr_left fun x _ => ?_
  by_cases h : key x = k
  · simp only [h, decide_true, if_true, ht]
  · simp only [h, decide_false, Bool.false_eq_true, if_false, hf]

theorem origins_located (w : Timers) (id : ReqId) (l : List OriginRec) : updWhere (fun o => decide (o.id = id))
    (fun o => if o.ended.isNone && o.state = .locating then { o with locateWindow := some w.locateWindow } else o) l
      = l.map fun o => o.started w (decide (o.id = id)) false false := by
  refine updWhere_started OriginRec.id id (g := fun b o => o.started w b false false) (fun o => ?_) (origin_started_none w) l
  simp only [OriginRec.started, Bool.and_true, Bool.and_false, cond_false]
  cases o.ended.isNone && decide (o.state = .locating) <;> rfl

theorem origins_offered (w : Timers) (id : ReqId) (l : List OriginRec) : updWhere (fun o => decide (o.id = id))
    (fun o => if o.ended.isNone && o.state = .offered then { o with bidWindow := some w.bidWindow } else o) l
      = l.map fun o => o.started w false (decide (o.id = id)) false := by
  refine updWhere_started OriginRec.id id (g := fun b o => o.started w false b false) (fun o => ?_) (origin_started_none w) l
  simp only [OriginRec.started, Bool.and_true, Bool.and_false, cond_false]
  cases o.ended.isNone && decide (o.state = .offered) <;> rfl

theorem origins_awarded (w : Timers) (id : ReqId) (dst : Option Nat) (l : List OriginRec) : updWhere (fun o => decide (o.id = id))
    (fun o => if o.ended.isNone && o.state = .awarding && o.awardee = dst then { o with awardAnswer := some w.awardAnswer } else o) l
      = l.map fun o => o.started w false false (decide (o.id = id) && decide (o.awardee = dst)) := by
  refine updWhere_started OriginRec.id id (g := fun b o => o.started w false false (b && decide (o.awardee = dst))) (fun o => ?_)
    (origin_started_none w) l
  simp only [OriginRec.started, Bool.true_and, Bool.and_false, cond_false]
  cases o.ended.isNone && decide (o.state = .awarding) && decide (o.awardee = dst) <;> rfl

theorem mounts_fetched (w : Timers) (id : ReqId) (l : List MountRec) : updWhere (fun m => decide (m.id = id))
    (fun m => if m.stage = .sourcing then { m with arrivalLimit := some w.arrivalLimit } else m) l
      = l.map fun m => m.started w (decide (m.id = id)) := by
  refine updWhere_started MountRec.id id (g := fun b m => m.started w b) (fun m => ?_) (mount_started_none w) l
  by_cases h : m.stage = .sourcing <;> simp [MountRec.started, h]

theorem prompts_notified (n : Nat) (l : List Prompt) : updWhere (fun p => decide (p.number = n))
    (fun p => if p.notice = .offered then { p with notice := .sent } else p) l = l.map fun p => p.started (decide (p.number = n)) := by
  refine updWhere_started Prompt.number n (g := fun b p => p.started b) (fun p => ?_) prompt_started_none l
  by_cases h : p.notice = .offered <;> simp [Prompt.started, h]

/-- What a frame's entry starts, record by record (R35). -/
theorem frameEntered_started (g : TxFrame) (s : State) : frameEntered g s = s.startedBy [g] := by
  obtain ⟨dst, body, begun, seq, resend⟩ := g
  simp only [State.startedBy, List.any_cons, List.any_nil, Bool.or_false, List.foldl_cons, List.foldl_nil]
  cases body
  case deposit r =>
    simp only [TxFrame.locates, TxFrame.offers, TxFrame.awards, TxFrame.fetches, TxFrame.notifies, depositsLeft, origin_started_none,
      mount_started_none, prompt_started_none, List.map_id', frameEntered]
    cases resend with
    | false => rfl
    | true =>
      cases hd : dst.bind s.sideOf with
      | none => rfl
      | some d => cases d <;> rfl
  all_goals
    simp only [TxFrame.locates, TxFrame.offers, TxFrame.awards, TxFrame.fetches, TxFrame.notifies, depositsLeft, origin_started_none,
      mount_started_none, prompt_started_none, List.map_id', frameEntered, updOrigin, updMount, updPrompt, origins_located, origins_offered,
      origins_awarded, mounts_fetched, prompts_notified]

/-- What the frames of a list start, one after the other. -/
theorem foldl_frameEntered (l : List TxFrame) (s : State) : l.foldl (fun s f => frameEntered f s) s = s.startedBy l := by
  induction l generalizing s with
  | nil =>
    simp only [List.foldl_nil, State.startedBy, List.any_nil, origin_started_none, mount_started_none, prompt_started_none, List.map_id']
  | cons g l ih =>
    rw [List.foldl_cons, ih, frameEntered_started]
    simp only [State.startedBy, List.map_map, Function.comp_def, List.foldl_cons, List.foldl_nil, List.any_cons, List.any_nil, Bool.or_false]
    simp only [show ∀ (w : Timers) (a b c : Bool) (o : OriginRec), (o.started w a b c).id = o.id from fun _ _ _ _ _ => rfl,
      show ∀ (w : Timers) (a b c : Bool) (o : OriginRec), (o.started w a b c).awardee = o.awardee from fun _ _ _ _ _ => rfl,
      show ∀ (w : Timers) (a : Bool) (m : MountRec), (m.started w a).id = m.id from fun _ _ _ => rfl,
      show ∀ (a : Bool) (p : Prompt), (p.started a).number = p.number from fun _ _ => rfl,
      State.timers, origin_started_started, mount_started_started, prompt_started_started]
    rfl

/-! ### CONFLICT -/

/-- The state in CONFLICT, before what the discarded frames start (R43). -/
def State.silenced (s : State) : State := { s with
  host := { s.host with state := .conflict, notices := s.host.notices ++ [.addressConflict s.addr] }
  line := { s.line with queue := [], waiting := [], phase := .idle, attempt := 0, retries := 0, backoff := 0, presence := none } }

theorem enterConflict_eq (h : s.host.state ≠ .conflict) : enterConflict s = s.silenced.startedBy s.line.waiting := by
  have hdiscard : discardFrames s = State.startedBy { s with line := s.silenced.line } s.line.waiting := foldl_frameEntered _ _
  rw [enterConflict, if_neg h, hdiscard]
  rfl

theorem startedBy_settled (hs : s.settled = true) (l : List TxFrame) : (s.startedBy l).settled = true := by
  refine settled_of_display hs rfl rfl rfl rfl
    (displaySettled_map (g := fun p => p.started (l.any (TxFrame.notifies p.number))) (fun p => ⟨rfl, rfl⟩) (fun p => rfl) rfl rfl rfl rfl)

theorem cond_started_iff {α : Type} {due : Prop} {b : Bool} (h : due ↔ b = true) (now before : α) :
    (due → (bif b then now else before) = now) ∧ (¬ due → (bif b then now else before) = before) := by
  rw [h]
  cases b <;> simp

theorem hear_ownAddress {f : RawFrame} (hph : s.line.phase ≠ .sending) (hp : framePasses .hello f = true) (ha : f.src.toNat = s.addr) :
    hear .hello f s = enterConflict s := by
  rw [hear, if_neg (by simp [hph, hp]), if_pos ha, if_pos rfl]

/-- Settles O32: `discardFrames` starts what each discarded frame's entry would, as `foldl_frameEntered` has it. -/
theorem ownAddressHelloConflicts : Obligations.OwnAddressHelloConflicts := by
  intro s f hs hheld hph hp ha
  refine ⟨fun hc => ?_, fun hc => ?_⟩
  · exact runEvent_ends hheld ((hear_ownAddress hph hp ha).trans (if_pos hc)) hs
  · intro waits starts resent
    have hresent (d : Side) (l : List Routing) : s.line.waiting.foldl (depositsLeft s.sideOf d) l = resent d l := by
      refine congrArg (fun f => s.line.waiting.foldl f l) (funext fun l => funext fun g => ?_)
      unfold depositsLeft
      cases g.body <;> rfl
    have hset : (s.silenced.startedBy s.line.waiting).settled = true := startedBy_settled (settled_of_same hs rfl rfl rfl rfl) _
    refine ⟨s.silenced.startedBy s.line.waiting, runEvent_ends hheld ((hear_ownAddress hph hp ha).trans (enterConflict_eq hc)) hset, rfl, rfl,
      fun i o ho => ?_, fun i m hm => ?_, fun i p hp => ?_, ?_, List.length_map .., List.length_map .., List.length_map ..⟩
    · refine ⟨_, _, _, (List.getElem?_map ..).trans ((congrArg (Option.map _) ho).trans rfl), cond_started_iff ?_ _ _, cond_started_iff ?_ _ _,
        cond_started_iff ?_ _ _⟩
      · simp [waits, locates_iff, and_assoc]
      · simp [waits, offers_iff, and_assoc]
      · simp [waits, awards_iff, and_assoc]
    · refine ⟨_, (List.getElem?_map ..).trans ((congrArg (Option.map _) hm).trans rfl), cond_started_iff ?_ _ _⟩
      simp [waits, fetches_iff]
    · have hdue : (p.notice = .offered ∧ waits fun g => ∃ k v, g.body = .promptNotice p.number k v)
          ↔ (decide (p.notice = .offered) && s.line.waiting.any (TxFrame.notifies p.number)) = true := by simp [waits, notifies_iff]
      obtain ⟨hnow, hbefore⟩ := cond_started_iff hdue NoticeState.sent p.notice
      exact ⟨_, (List.getElem?_map ..).trans ((congrArg (Option.map _) hp).trans rfl), fun h1 h2 => hnow ⟨h1, h2⟩, hbefore⟩
    · rw [← hresent, ← hresent]
      rfl

end
end Sys2Proof.Machine


/-! HELLO: the peer recorded, a restart or a return reported, and the lane to a neighbour agreed. -/

namespace Sys2Proof.Machine

-- One proof at a time: proofs that wait for each other on threads of their own would reserve more stack than the check allows.
set_option Elab.async false

section
variable {s t : State}

/-! ### The lane to a neighbour -/

theorem side_updSide_same (d : Side) (g : SideRec → SideRec) (s : State) : (updSide d g s).side d = g (s.side d) := by cases d <;> rfl

theorem updSide_updSide (d : Side) (f g : SideRec → SideRec) (s : State) : updSide d g (updSide d f s) = updSide d (g ∘ f) s := by
  cases d <;> rfl

theorem updSide_lane (d : Side) (g : SideRec → SideRec) (s : State) : updSide d g s = { s with lane := (updSide d g s).lane } := by
  cases d <;> rfl

/-- A side as its lane is agreed anew, with no credit reserved (R138). -/
def SideRec.agreedTo (agreed occupancy undelivered : Nat) (r : SideRec) : SideRec := { r with
  agreed := agreed, available := agreed - occupancy - undelivered, outbound := if r.hold then .held else .isOpen }

theorem grantCredits_unasked {d : Side} (h : (s.side d).requests = []) : grantCredits d s = s := by
  rw [grantCredits, h, grantFrom]

/-- The lane of a side without holders and requests is agreed (R138). -/
theorem agreeLane_free {d : Side} (hh : (s.side d).holders = []) (hr : (s.side d).requests = []) (c o u : Nat) :
    agreeLane d c o u s = updSide d (SideRec.agreedTo (min (s.advertised d) c) o u) s := by
  unfold agreeLane
  have hw : (updSide d (fun r => { r with agreed := min (s.advertised d) c }) s).side d
      = { s.side d with agreed := min (s.advertised d) c } := side_updSide_same ..
  simp only [hw, hh, List.reverse_nil, withdrawFrom, updSide_updSide]
  rw [grantCredits_unasked (by rw [side_updSide_same]; exact hr)]
  refine updSide_congr ?_
  simp only [Function.comp_apply, SideRec.reserved, hh, List.length_nil, Nat.sub_zero, SideRec.agreedTo]

/-- A neighbour's HELLO acts on a side in AGREEING only (R137). -/
theorem applyHello_idle {d : Side} (h : (s.side d).outbound ≠ .agreeing) (hello : HelloFields) (u : Nat) : applyHello d hello u s = s :=
  if_neg h

theorem applyHello_agrees {d : Side} (ha : (s.side d).outbound = .agreeing) (hh : (s.side d).holders = []) (hr : (s.side d).requests = [])
    {h : HelloFields} (hc : 1 ≤ (h.facing d).1) (u : Nat) :
    applyHello d h u s = updSide d (SideRec.agreedTo (min (s.advertised d) (h.facing d).1) (h.facing d).2 u) s := by
  rw [applyHello, if_pos ha, if_neg (Nat.pos_iff_ne_zero.mp hc), agreeLane_free hh hr]

/-- A side as its neighbour has restarted, before its lane is agreed anew (R150). -/
def SideRec.restarted (r : SideRec) : SideRec := { r with outbound := .agreeing, available := 0, unreported := 0 }

theorem laneRestart_free {d : Side} (hu : (s.side d).undelivered = []) (h : HelloFields) :
    laneRestart d h s = applyHello d h 0 (updSide d SideRec.restarted s) := by
  rw [laneRestart, hu]
  rfl

/-! ### A restart and the requests awarded to the peer -/

theorem originRestart_skip {a : Nat} {id : ReqId} (h : ∀ o, s.origin id = some o → o.awardee ≠ some a) : originRestart a id s = s := by
  unfold originRestart
  split
  next o ho => exact if_neg (h o ho)
  next => rfl

theorem originRestart_ends {a : Nat} {id : ReqId} {o : OriginRec} (ho : s.origin id = some o) (ha : o.awardee = some a)
    (hst : o.state = .awarded ∨ o.state = .cancelling) : originRestart a id s = endRequest id (.failed .peerReset) s := by
  obtain h | h := hst <;> simp only [originRestart, ho, ha, h, if_true]

/-- Requests that are not awarded to the peer stay as they are (R68). -/
theorem foldl_originRestart_skip {a : Nat} (ids : List ReqId) (h : ∀ id ∈ ids, ∀ o, s.origin id = some o → o.awardee ≠ some a) :
    ids.foldl (fun s id => originRestart a id s) s = s := by
  induction ids with
  | nil => rfl
  | cons id ids ih =>
    rw [List.foldl_cons, originRestart_skip (h id List.mem_cons_self)]
    exact ih fun x hx => h x (List.mem_cons_of_mem _ hx)

theorem origin_mem {id : ReqId} {o : OriginRec} (h : s.origin id = some o) : o ∈ s.neg.origins := List.mem_of_find?_eq_some h

theorem originsRestart_skip {a : Nat} (h : ∀ o ∈ s.neg.origins, o.awardee ≠ some a) : originsRestart a s = s :=
  foldl_originRestart_skip _ fun _ _ o ho => h o (origin_mem ho)

/-- The one request awarded to the restarted peer ends (R68). -/
theorem originsRestart_one {a : Nat} {o : OriginRec} {pre post : List OriginRec} (hl : s.neg.origins = pre ++ o :: post)
    (hx : ∀ x ∈ pre ++ post, x.awardee ≠ some a ∧ x.id ≠ o.id) (ha : o.awardee = some a) (hst : o.state = .awarded ∨ o.state = .cancelling)
    (he : o.ended = none) :
    originsRestart a s = { s with neg := { s.neg with
      origins := pre ++ OriginRec.closed (.failed .peerReset) o :: post
      notices := s.neg.notices ++ [.mountResult o.id o.tag o.volser (.failed .peerReset)] } } := by
  have hothers {u : State} {o' : OriginRec} (hu : u.neg.origins = pre ++ o' :: post) (hid : o'.id = o.id) (l : List OriginRec)
      (hsub : ∀ x ∈ l, x ∈ pre ++ post) : (l.map (·.id)).foldl (fun s id => originRestart a id s) u = u := by
    refine foldl_originRestart_skip _ fun id hmem r hr => ?_
    obtain ⟨x, hxl, rfl⟩ := List.mem_map.mp hmem
    obtain ⟨hrid, -⟩ := origin_spec hr
    have hne : r.id ≠ o.id := by rw [hrid]; exact (hx x (hsub x hxl)).2
    have hr' := origin_mem hr
    rw [hu, List.mem_append, List.mem_cons] at hr'
    obtain h | rfl | h := hr'
    · exact (hx r (List.mem_append_left _ h)).1
    · exact absurd hid hne
    · exact (hx r (List.mem_append_right _ h)).1
  have ho : s.origin o.id = some o := by
    rw [State.origin, hl, List.find?_append, List.find?_eq_none.mpr fun x h => by simp [(hx x (List.mem_append_left _ h)).2], Option.none_or,
      List.find?_cons_of_pos (by simp [he])]
  have hend : endRequest o.id (.failed .peerReset) s = { s with neg := { s.neg with
      origins := pre ++ OriginRec.closed (.failed .peerReset) o :: post
      notices := s.neg.notices ++ [.mountResult o.id o.tag o.volser (.failed .peerReset)] } } := by
    have hkeep (l : List OriginRec) (hsub : ∀ x ∈ l, x ∈ pre ++ post) :
        updWhere (fun x => decide (x.id = o.id)) (OriginRec.closed (.failed .peerReset)) l = l :=
      (List.map_congr_left fun x h => if_neg (by simpa using (hx x (hsub x h)).2)).trans (List.map_id' _)
    have hupd : updWhere (fun x => decide (x.id = o.id)) (OriginRec.closed (.failed .peerReset)) s.neg.origins
        = pre ++ OriginRec.closed (.failed .peerReset) o :: post := by
      rw [hl, updWhere, List.map_append, List.map_cons, if_pos (decide_eq_true rfl)]
      exact congrArg₂ (fun x y => x ++ _ :: y) (hkeep pre fun _ => List.mem_append_left _) (hkeep post fun _ => List.mem_append_right _)
    rw [endRequest_eq ho, updOrigin, hupd]
    rfl
  rw [originsRestart, hl, List.map_append, List.foldl_append, hothers hl rfl pre fun _ => List.mem_append_left _, List.map_cons, List.foldl_cons,
    originRestart_ends ho ha hst, hend]
  exact hothers (o' := OriginRec.closed (.failed .peerReset) o) rfl rfl post fun _ => List.mem_append_right _

/-! ### A return: the deposits and the credit offered again -/

theorem foldl_deposits {d : Side} {a : Nat} (ha : s.neighbour d = a) (hon : s.onLine = true) (hw : s.line.waiting = []) (l : List Routing)
    (hroom : s.line.queue.length + l.length ≤ 16) :
    l.foldl (fun s r => offerTo (s.neighbour d) (.deposit r) s) s
      = { s with line := { s.line with queue := s.line.queue ++ l.map (fun r => ⟨some a, .deposit r, false, 0, false⟩) } } := by
  induction l generalizing s with
  | nil => simp
  | cons r l ih =>
    rw [List.length_cons] at hroom
    have hone : offerTo (s.neighbour d) (.deposit r) s = s.queueing (some a) (.deposit r) := by
      rw [ha, offerTo, offerTx_queueing (lineRoom_of hon hw (by omega)) (by simp [Body.kind]), frameEntered_deposit rfl rfl]
    rw [List.foldl_cons, hone, ih (s := s.queueing (some a) (.deposit r)) ha hon hw (by simp [State.queueing]; omega)]
    simp [State.queueing]

/-- A CREDIT with none to merge with enters the queue (R36). -/
theorem offerTo_credit (hroom : s.lineRoom = true) (hq : ∀ g ∈ s.line.queue, g.body.kind ≠ .credit) (hw : s.line.waiting = []) (a : Nat)
    (lane : Side) (n : Nat) : offerTo a (.credit lane n) s = s.queueing (some a) (.credit lane n) := by
  rw [State.lineRoom, Bool.and_eq_true] at hroom
  obtain ⟨hc, hr⟩ := hroom
  have hnone : s.line.queue.any (TxFrame.isCredit (some a) lane) = false := by
    refine List.any_eq_false.mpr fun g hg h => hq g hg ?_
    unfold TxFrame.isCredit at h
    split at h
    next hb => rw [hb]; rfl
    next => cases h
  simp only [offerTo, offerTx, bne_iff_ne.mp hc, if_false, hnone, Bool.false_eq_true, hr, if_true, enterQueue,
    frameEntered_plain (f := ⟨some a, .credit lane n, false, 0, false⟩) (by simp [Body.kind]), hw, List.filter_nil, List.foldl_nil]
  rw [State.queueing, ← hw]

theorem resendDeposits_enter {d : Side} {a : Nat} (ha : s.neighbour d = a) (hon : s.onLine = true) (hw : s.line.waiting = [])
    (hroom : s.line.queue.length + (s.side d).undelivered.length ≤ 16) :
    resendDeposits d s = { updSide d (fun x => { x with undelivered := [] }) s with line := { s.line with
      queue := s.line.queue ++ (s.side d).undelivered.map (fun r => ⟨some a, .deposit r, false, 0, false⟩) } } := by
  rw [resendDeposits, updSide_lane]
  generalize (updSide d _ s).lane = l
  exact foldl_deposits (s := { s with lane := l }) ha hon hw _ hroom

theorem reportCredit_enters {d : Side} {a : Nat} (ha : s.neighbour d = a) (hroom : s.lineRoom = true) (hw : s.line.waiting = [])
    (hq : ∀ g ∈ s.line.queue, g.body.kind ≠ .credit) :
    reportCredit d s = { updSide d (fun x => { x with unreported := 0 }) s with line := { s.line with
      queue := s.line.queue ++ if (s.side d).unreported = 0 then [] else [⟨some a, .credit d.opposite (s.side d).unreported, false, 0, false⟩] } } := by
  unfold reportCredit
  by_cases hn : (s.side d).unreported = 0
  · have hid : updSide d (fun x => { x with unreported := 0 }) s = s := by
      obtain ⟨⟩ := s
      cases d <;> exact (updSide_congr (g := id) (by rw [← hn]; rfl)).trans rfl
    rw [if_pos hn, if_pos hn, hid, List.append_nil]
  · rw [if_neg hn, if_neg hn, ha]
    rw [updSide_lane]
    generalize (updSide d _ s).lane = l
    exact offerTo_credit (s := { s with lane := l }) hroom hq hw a _ _

/-- A side as it leaves DOWN, its deposits and credit still unreported (R149). -/
def SideRec.upAgain (r : SideRec) : SideRec := { r with outbound := if r.hold then .held else .isOpen }

/-- A side as its neighbour has returned (R149). -/
def SideRec.back (r : SideRec) : SideRec := { r with
  outbound := if r.hold then .held else .isOpen, undelivered := [], unreported := 0 }

/-- The lane to a neighbour that is back UP (R149). -/
theorem laneReturn_back {d : Side} {a : Nat} (hd : (s.side d).outbound = .down) (hf : (s.side d).downFromAgreeing = false)
    (hr : (s.side d).requests = []) (ha : s.neighbour d = a) (hon : s.onLine = true) (hw : s.line.waiting = [])
    (hq : ∀ g ∈ s.line.queue, g.body.kind ≠ .credit) (hroom : s.line.queue.length + (s.side d).undelivered.length < 16) :
    laneReturn d s = { updSide d SideRec.back s with line := { s.line with
      queue := s.line.queue ++ (s.side d).undelivered.map (fun r => ⟨some a, .deposit r, false, 0, false⟩)
        ++ (if (s.side d).unreported = 0 then [] else [⟨some a, .credit d.opposite (s.side d).unreported, false, 0, false⟩]) } } := by
  have hopen : updSide d SideRec.reopened s = updSide d SideRec.upAgain s :=
    updSide_congr (if_neg (by rw [hf]; exact Bool.false_ne_true))
  have hdeps : ∀ g ∈ s.line.queue ++ (s.side d).undelivered.map (fun r => (⟨some a, .deposit r, false, 0, false⟩ : TxFrame)),
      g.body.kind ≠ .credit := by
    intro g hg
    obtain hg | hg := List.mem_append.mp hg
    · exact hq g hg
    · obtain ⟨r, -, rfl⟩ := List.mem_map.mp hg
      simp [Body.kind]
  have hline (g : SideRec → SideRec) : (updSide d g s).line = s.line := by cases d <;> rfl
  have hup (l : LineUnit) (g : SideRec → SideRec) : State.neighbour { updSide d g s with line := l } d = a
      ∧ State.onLine { updSide d g s with line := l } = true ∧ State.side { updSide d g s with line := l } d = g (s.side d) := by
    cases d <;> exact ⟨ha, hon, rfl⟩
  obtain ⟨hnb, hol, hside⟩ := hup s.line SideRec.upAgain
  rw [laneReturn, if_pos hd, hopen, resendDeposits_enter (a := a) (by rw [← hnb]; cases d <;> rfl) (by rw [← hol]; cases d <;> rfl)
    (by rw [hline]; exact hw) (by rw [hline, side_updSide_same]; exact Nat.le_of_lt hroom), hline, side_updSide_same, updSide_updSide]
  obtain ⟨hnb, hol, hside⟩ := hup { s.line with
    queue := s.line.queue ++ (s.side d).undelivered.map (fun r => (⟨some a, .deposit r, false, 0, false⟩ : TxFrame)) }
    ((fun x : SideRec => { x with undelivered := [] }) ∘ SideRec.upAgain)
  have hcredit := reportCredit_enters hnb (lineRoom_of hol hw (by simpa using hroom)) hw hdeps
  rw [hside] at hcredit
  refine (congrArg (grantCredits d) hcredit).trans ?_
  cases d <;> exact grantCredits_unasked hr

theorem neighbour_sideOf {a : Nat} {d : Side} (h : s.sideOf a = some d) : s.neighbour d = a ∧ a ≠ s.addr := by
  unfold State.sideOf at h
  split at h
  · next hw =>
    cases h
    have := beq_iff_eq.mp (Bool.and_eq_true_iff.mp hw).2
    exact ⟨by rw [State.neighbour]; omega, by omega⟩
  · split at h
    · next he =>
      cases h
      have := beq_iff_eq.mp (Bool.and_eq_true_iff.mp he).2
      exact ⟨this.symm, by omega⟩
    · cases h

/-- Two sides never lead to the same neighbour (R135). -/
theorem sideOf_unique {a : Nat} {d d' : Side} (h : s.sideOf a = some d) (h' : t.sideOf a = some d') (ht : t.addr = s.addr) : d' = d := by
  obtain ⟨hn, -⟩ := neighbour_sideOf h
  obtain ⟨hn', hne⟩ := neighbour_sideOf h'
  cases d <;> cases d'
  case west.east | east.west =>
    simp only [State.neighbour] at hn hn'
    omega
  all_goals rfl

/-! ### HELLO -/

/-- A HELLO that is heard records its sender's contents (R39). -/
def State.greeted (s : State) (a : Nat) (h : HelloFields) : State := setPeer a ⟨.up, s.timers.robustness * s.timers.presence, some h⟩ s

/-- A peer has restarted: what it had told of itself is gone (R41). -/
def State.greetedAnew (s : State) (a : Nat) (h : HelloFields) : State := { s.greeted a h with
  line := { (s.greeted a h).line with dedupe := tableDrop s.line.dedupe a }
  dir := { s.dir with learnt := s.dir.learnt.filter fun e => e.2.holder ≠ a }
  prm := { s.prm with remote := s.prm.remote.filter fun e => e.station ≠ a } }

theorem hear_hello {f : RawFrame} {h : HelloFields} (hph : s.line.phase ≠ .sending) (hp : framePasses .hello f = true)
    (ha : f.src.toNat ≠ s.addr) (hon : s.onLine = true) (hb : helloOf f.payload = some h) : hear .hello f s = onHello f.src.toNat h s := by
  rw [hear, if_neg (by simp [hph, hp]), if_neg ha, if_neg (onLine_not_config hon), takePeerFrame]
  simp only [bodyOf, hb, Option.map_some]

theorem restarted_false {p : Peer} {h : HelloFields} (hu : ∀ old, p.hello = some old → old.uptime ≤ h.uptime) : p.restarted h = false := by
  unfold Peer.restarted
  split
  next old ho => exact decide_eq_false (Nat.not_lt.mpr (hu old ho))
  next => rfl

/-- What a HELLO that shows no restart does, from a peer that is not DOWN (R39). -/
theorem onHello_known {a : Nat} {h : HelloFields} (hu : ∀ old, (s.peer a).hello = some old → old.uptime ≤ h.uptime)
    (hd : (s.peer a).presence ≠ .down) : onHello a h s = laneHello a h (s.greeted a h) := by
  rw [onHello, restarted_false hu, if_neg Bool.false_ne_true, if_neg hd]
  rfl

theorem laneHello_none {a : Nat} (h : s.sideOf a = none) (hello : HelloFields) : laneHello a hello s = s := by rw [laneHello, h]

theorem laneHello_idle {a : Nat} (hello : HelloFields) (h : ∀ d, s.sideOf a = some d → (s.side d).outbound ≠ .agreeing) :
    laneHello a hello s = s := by
  unfold laneHello
  split
  next d hd => exact applyHello_idle (h d hd) hello _
  next => rfl

theorem reportReturn_some {a : Nat} {d : Side} (h : s.sideOf a = some d) : reportReturn a s = laneReturn d s := by rw [reportReturn, h]

theorem laneHello_some {a : Nat} {d : Side} (h : s.sideOf a = some d) (hello : HelloFields) :
    laneHello a hello s = applyHello d hello (s.side d).undelivered.length s := by rw [laneHello, h]

/-- What a HELLO that shows a restart does, in two steps: the requests and the lane, and the rest (R41). -/
theorem onHello_restarted {a : Nat} {h old : HelloFields} (ho : (s.peer a).hello = some old) (hu : h.uptime < old.uptime)
    {u : State} (horg : originsRestart a (forgetHolder a (dropDedupe a (s.greeted a h))) = u) :
    onHello a h s = dropRemote a ((u.sideOf a).elim u fun d => laneRestart d h u) := by
  rw [onHello, Peer.restarted, ho, if_pos (decide_eq_true hu)]
  show dropRemote a (match (originsRestart a (forgetHolder a (dropDedupe a (s.greeted a h)))).sideOf a with
    | some d => laneRestart d h (originsRestart a (forgetHolder a (dropDedupe a (s.greeted a h))))
    | none => originsRestart a (forgetHolder a (dropDedupe a (s.greeted a h)))) = _
  rw [horg]
  cases u.sideOf a <;> rfl

/-- Settles O35: `onHello` by what the HELLO shows, with the lane's part from `laneRestart_free`, `laneReturn_back` and
`applyHello_agrees`. -/
theorem helloRecordsAndAgrees : Obligations.HelloRecordsAndAgrees := by
  refine ⟨fun s f h old hs hh hb ho hu => ?_, fun s f h d hs hr hph hp hon hb hu hdown hd hout hfa hreq hw hq hroom => ?_,
    fun s f h hs hh hb hu => ?_⟩
  · obtain ⟨hr, hph, hp, ha, hon, -⟩ := hears_parts hh
    intro a t lost
    have hfin {u v : State} (horg : originsRestart a (forgetHolder a (dropDedupe a (s.greeted a h))) = u)
        {l : Option Side} (hl : u.sideOf a = l) (hv : dropRemote a (l.elim u fun d => laneRestart d h u) = v) (hvs : v.settled = true) : exec (.helloReceived f) s = .next v :=
      runEvent_ends hr ((hear_hello hph hp ha hon hb).trans ((onHello_restarted ho hu horg).trans (hl ▸ hv))) hvs
    have hlost : dropRemote a (forgetHolder a (dropDedupe a (s.greeted a h))) = lost := by
      have hf (l : Table LearntEntry) : (l.filter fun e => !decide (e.2.holder = a)) = l.filter fun e => e.2.holder ≠ a :=
        List.filter_congr fun e _ => (decide_not ..).symm
      simp only [dropRemote, filter_ne, forgetHolder, forgetWhere, hf]
      rfl
    have hset {v : State} (h1 : v.seq = s.seq) (h2 : v.prm = lost.prm) : v.settled = true := by
      refine (settled_congr ?_ ?_ ?_ ?_ ?_ ?_ ?_ ?_).trans hs <;> simp only [h1, h2, lost]
    refine ⟨fun hna => ?_, fun o pre post hl hx hoa hst he hd => ?_⟩
    · have horg := originsRestart_skip (s := forgetHolder a (dropDedupe a (s.greeted a h))) hna
      refine ⟨fun hd => hfin horg hd hlost (hset rfl rfl), fun d hd hhold hreq hund => ?_⟩
      · generalize hu : forgetHolder a (dropDedupe a (s.greeted a h)) = u at horg
        have hside : u.side d = s.side d := by rw [← hu]; cases d <;> rfl
        have hrs : (updSide d SideRec.restarted u).side d = (s.side d).restarted := by rw [side_updSide_same, hside]
        have hfin' {g : SideRec → SideRec} (hg : applyHello d h 0 (updSide d SideRec.restarted u) = updSide d g (updSide d SideRec.restarted u)) :
            exec (.helloReceived f) s = .next (updSide d (g ∘ SideRec.restarted) lost) := by
          refine hfin (hu ▸ horg) (show u.sideOf a = some d by rw [← hu]; exact hd) ?_ (by cases d <;> exact hset rfl rfl)
          show dropRemote a (laneRestart d h u) = _
          rw [laneRestart_free (by rw [hside]; exact hund), hg, updSide_updSide, ← hlost, ← hu]
          cases d <;> rfl
        refine ⟨fun hc => ?_, fun hc => ?_⟩
        · refine (hfin' (applyHello_agrees (by rw [hrs]; rfl) (by rw [hrs]; exact hhold) (by rw [hrs]; exact hreq) hc 0)).trans ?_
          rw [← hu]
          cases d <;> rfl
        · exact hfin' (g := fun r => { r with available := 0 }) (by rw [applyHello, if_pos (by rw [hrs]; rfl), if_pos hc])
    · have horg := originsRestart_one (s := forgetHolder a (dropDedupe a (s.greeted a h))) hl hx hoa hst he
      rw [closed_failed] at horg
      refine hfin horg hd ?_ (hset rfl rfl)
      rw [← hlost]
      rfl
  · intro a n t back
    obtain ⟨hnb, hne⟩ := neighbour_sideOf hd
    have hret := laneReturn_back (s := s.greeted a h) (a := a) hout hfa hreq hnb hon hw hq hroom
    have hheld : (if (s.side d).hold = true then LaneState.held else .isOpen) ≠ .agreeing := by split <;> simp
    have hlane {v : State} (hv : laneReturn d (s.greeted a h) = v) (haddr : v.addr = s.addr) (hna : (v.side d).outbound ≠ .agreeing) :
        onHello a h s = v := by
      rw [onHello, restarted_false hu, if_neg Bool.false_ne_true, if_pos hdown]
      refine (congrArg (laneHello a h) ((reportReturn_some (s := s.greeted a h) hd).trans hv)).trans ?_
      exact laneHello_idle h fun d' hd' => sideOf_unique hd hd' haddr ▸ hna
    refine runEvent_ends (f := hear .hello f) hr ((hear_hello hph hp hne hon hb).trans (hlane (hret.trans ?_) ?_ ?_)) ?_
    · cases d <;> rfl
    · cases d <;> rfl
    · cases d <;> exact hheld
    · cases d <;> exact settled_of_same hs rfl rfl rfl rfl
  · obtain ⟨hr, hph, hp, ha, hon, hnd⟩ := hears_parts hh
    intro t
    have hend {u : State} (h1 : laneHello f.src.toNat h t = u) (h2 : u.settled = true) : exec (.helloReceived f) s = .next u :=
      runEvent_ends hr ((hear_hello hph hp ha hon hb).trans ((onHello_known hu hnd).trans h1)) h2
    have hts : t.settled = true := settled_of_same hs rfl rfl rfl rfl
    refine ⟨fun hd => hend (laneHello_none (s := t) hd h) hts, fun d hd => ⟨fun hna => ?_, fun hag hhold hreq hc => ?_⟩⟩
    · refine hend ((laneHello_some (s := t) hd h).trans (applyHello_idle ?_ h _)) hts
      exact hna
    · refine hend ((laneHello_some (s := t) hd h).trans ((applyHello_agrees (s := t) hag hhold hreq hc _).trans ?_)) ?_
      · exact updSide_congr rfl
      · cases d <;> exact settled_of_same hs rfl rfl rfl rfl

end
end Sys2Proof.Machine


/-! DEPOSIT and CREDIT: what a DOWN neighbour's return queues. -/

namespace Sys2Proof.Machine

-- One proof at a time: proofs that wait for each other on threads of their own would reserve more stack than the check allows.
set_option Elab.async false

/-- A deposit that could not be delivered. -/
def keptDeposit : Routing := ⟨⟨1, 1, 1, 1, 1, 1⟩, ⟨9, 1⟩, .toHome, some 4, false, 1, 0, none⟩

/-- The CREDIT for the west neighbour that is in the queue already, its first attempt not begun. -/
def queuedCredit : TxFrame := ⟨some 4, .credit .east 1, false, 0, false⟩

/-- A RUNNING station 5 whose west neighbour is DOWN, with an undelivered deposit and unreported credit for it, and a CREDIT for it in the
transmit queue. -/
def creditQueued : State :=
  let s := State.resetWith ⟨⟨5, 3, true, true⟩, false, false⟩ []
  { s with
    host := { s.host with state := .running }
    line := { s.line with queue := [queuedCredit], peers := [(4, ⟨.down, 0, none⟩)] }
    lane := { s.lane with west := { s.lane.west with outbound := .down, undelivered := [keptDeposit], unreported := 2 } } }

/-- An ACK of the west neighbour for another station. -/
def passingAck : RawFrame :=
  match frameOfBytes (frameBytes (some 9) 4 0 .ack) with
  | some (_, f) => f
  | none => ⟨0, 0, 0, [], 0⟩

/-- The frames in the transmit queue after an event. -/
def queueAfter (o : Host.Outcome State Fault Refusal) : List TxFrame :=
  match o with
  | .next t => t.line.queue
  | .fault _ | .refused _ => []

theorem creditQueued_hearsDown : creditQueued.settled = true ∧ creditQueued.hearsDown .ack passingAck = true := by decide

/-- The neighbour's return raises the count of the queued CREDIT and sends the deposit: two frames. -/
theorem queue_creditQueued : (queueAfter (exec (frameRow .ack passingAck) creditQueued)).length = 2 := by decide

/-- Refutes O45: where the neighbour has returned, the clause for an undelivered deposit and unreported credit puts a CREDIT of its own
behind the deposit; a CREDIT that is queued already, its first attempt not begun, takes the count instead (R36). -/
theorem not_depositAndCredit : ¬ Obligations.DepositAndCredit := by
  rintro ⟨-, hreturn, -⟩
  obtain ⟨hs, hh⟩ := creditQueued_hearsDown
  obtain ⟨-, hside⟩ := hreturn creditQueued .ack passingAck hs hh nofun
  obtain ⟨-, hsends⟩ := hside .west (by decide) rfl rfl
  have hsame := congrArg (fun o => (queueAfter o).length) (hsends keptDeposit rfl (by decide) rfl (by decide))
  exact absurd (queue_creditQueued.symm.trans hsame) (by decide)

end Sys2Proof.Machine


/-! The frame in service: its attempts, its ACK, and what its failure does. -/

namespace Sys2Proof.Machine

-- One proof at a time: proofs that wait for each other on threads of their own would reserve more stack than the check allows.
set_option Elab.async false

section
variable {s t : State} {g : TxFrame} {rest : List TxFrame}

/-! ### Attempts -/

/-- The line once the frame in service has left the queue. -/
def State.lineLeft (s : State) (rest : List TxFrame) : LineUnit :=
  { s.line with queue := rest, phase := .idle, attempt := 0, retries := 0, backoff := 0 }

/-- The state once the frame in service has left the queue. -/
def State.left (s : State) (rest : List TxFrame) : State := { s with line := s.lineLeft rest }

theorem leaveQueue_eq (hq : s.line.queue = g :: rest) : leaveQueue s = s.left rest := by
  rw [leaveQueue, hq]
  rfl

/-- An attempt of a frame begins on an idle line, its contents fixed by the first (R30, R33). -/
theorem attemptStart_eq (hq : s.line.queue = g :: rest) (hp : s.line.phase = .idle)
    (hst : s.host.state = .running ∨ s.host.state = .quiesced) :
    attemptStart s = { (if g.begun then s else beginFrame g s) with
      line := { (if g.begun then s else beginFrame g s).line with
        phase := .sending, attempt := (if g.begun then s else beginFrame g s).line.attempt + 1, backoff := 0 } } := by
  have hcond : (decide (s.line.phase = .idle) && (decide (s.host.state = .running) || decide (s.host.state = .quiesced))) = true := by
    simpa [hp] using hst
  simp only [attemptStart, hq, if_pos hcond]

theorem beginFrame_unicast (hq : s.line.queue = g :: rest) {a : Nat} (hd : g.dst = some a) (hk : g.body.kind ≠ .hello) :
    beginFrame g s = { s with line := { s.line with
      queue := { g with begun := true, seq := s.line.seqCounter } :: rest, seqCounter := (s.line.seqCounter + 1) % 256 } } := by
  obtain ⟨dst, body, begun, seq, resend⟩ := g
  cases hd
  simp only [beginFrame, hq]
  cases body
  case hello => exact absurd rfl hk
  all_goals rfl

/-- An attempt echoed whole, by whether the frame has a destination (R30). -/
theorem attemptDone_eq (hq : s.line.queue = g :: rest) (hp : s.line.phase = .sending) :
    attemptDone s = g.dst.elim (leaveQueue (sendLine (frameBytes g.dst s.addr g.seq g.body) s)) fun _ =>
      { s with line := { s.line with phase := .ackWait, sent := s.line.sent ++ [frameBytes g.dst s.addr g.seq g.body] } } := by
  unfold attemptDone
  split
  next h => exact nomatch hq.symm.trans h
  next f l h =>
    cases hq.symm.trans h
    rw [if_pos hp]
    cases g.dst <;> rfl

theorem takeAck_eq (hq : s.line.queue = g :: rest) (hp : s.line.phase = .ackWait) (a n : Nat) :
    takeAck a n s = if g.dst = some a ∧ g.seq = n then s.left rest else s := by
  simp only [takeAck, hq, hp, decide_true, Bool.true_and, Bool.and_eq_true, decide_eq_true_eq, leaveQueue_eq hq]

/-! ### Failure -/

/-- The peer marked DOWN (R40). -/
def State.peerLost (s : State) (a : Nat) : State := { setPeer a { s.peer a with presence := .down, silence := 0 } s with
  dir := { s.dir with learnt := s.dir.learnt.filter fun e => e.2.holder ≠ a }
  prm := { s.prm with remote := s.prm.remote.filter fun e => e.station ≠ a }
  lane := s.laneLost a }

/-- What the failure of a FETCH, DEPOSIT or CREDIT leaves before its block acts (R34). -/
def State.lostTo (s : State) (a : Nat) (rest : List TxFrame) : State :=
  if s.line.phase = .sending ∨ (s.peer a).presence = .down then s.left rest else (s.left rest).peerLost a

/-- What has failed: the third retry without its ACK, or the sixteenth attempt (R31, R34). -/
def State.fails (s : State) (i : Instr) : Prop :=
  i = .ackWaitExpiry ∧ s.line.phase = .ackWait ∧ 3 ≤ s.line.retries ∨ i = .echoMismatch ∧ s.line.phase = .sending ∧ 16 ≤ s.line.attempt

theorem lostTo_eq (hq : s.line.queue = g :: rest) (a : Nat) :
    (if s.line.phase = .sending then leaveQueue s else markDown a (leaveQueue s)) = s.lostTo a rest := by
  rw [leaveQueue_eq hq, State.lostTo]
  by_cases hp : s.line.phase = .sending
  · rw [if_pos hp, if_pos (.inl hp)]
  · rw [if_neg hp]
    by_cases hd : (s.peer a).presence = .down
    · rw [if_pos (.inr hd)]
      exact if_pos hd
    · rw [if_neg fun e => e.elim hp hd]
      exact markDown_eq (s := s.left rest) hd

/-- The row by which a unicast frame fails: it leaves the queue, and its block takes the report (R34). -/
theorem exec_fails (hr : s.pins.resetHeld = false) (hq : s.line.queue = g :: rest) {a : Nat} (hd : g.dst = some a) {i : Instr} (hi : s.fails i)
    (h : undelivered a g.body (if g.body.marksDown then s.lostTo a rest else s.left rest) = t) : exec i s = .next (settle false t) := by
  have hfail (unanswered : Bool) (hu : unanswered = !decide (s.line.phase = .sending)) : frameFailed unanswered s = t := by
    subst hu
    simp only [frameFailed, hq, hd]
    rw [← h, ← lostTo_eq hq, ← leaveQueue_eq hq]
    by_cases hp : s.line.phase = .sending <;> cases g.body.marksDown <;> simp [hp]
  obtain ⟨rfl, hp, hn⟩ | ⟨rfl, hp, hn⟩ := hi
  · refine runEvent_settles (f := ackWaitEnded) hr ?_
    rw [ackWaitEnded, if_pos hp, if_neg (Nat.not_lt.mpr hn)]
    exact hfail true (by rw [hp]; rfl)
  · refine runEvent_settles (f := attemptCollided) hr ?_
    rw [attemptCollided, if_pos hp, if_neg (Nat.not_lt.mpr hn)]
    exact hfail false (by rw [hp]; rfl)

theorem side_laneLost (a : Nat) (d : Side) (l : Option Side) (h : s.sideOf a = l) :
    (State.side { s with lane := s.laneLost a } d) = if l = some d then { s.side d with
      outbound := .down, downFromAgreeing := decide ((s.side d).outbound = .agreeing) } else s.side d := by
  subst h
  rw [State.laneLost]
  cases s.sideOf a with
  | none => rfl
  | some e => cases d <;> cases e <;> rfl

/-- A lane that goes DOWN is the lane of the same neighbour still (R148). -/
theorem sideOf_laneLost (a : Nat) : State.sideOf { s with lane := s.laneLost a } a = s.sideOf a := by
  have hfit (d : Side) : State.fitted { s with lane := s.laneLost a } d = s.fitted d := by
    rw [State.fitted, side_laneLost a d _ rfl]
    split
    next h => exact (bne_iff_ne.mpr (by nofun)).trans (bne_iff_ne.mpr (sideOf_fitted h)).symm
    next => rfl
  simp only [State.sideOf, hfit]
  rfl

/-- What a lost peer leaves as it was. -/
theorem lostTo_keeps (s : State) (a : Nat) (rest : List TxFrame) : (s.lostTo a rest).sideOf a = s.sideOf a
    ∧ (∀ d, ((s.lostTo a rest).side d).undelivered = (s.side d).undelivered ∧ ((s.lostTo a rest).side d).unreported = (s.side d).unreported)
    ∧ ∃ line dir lane remote, s.lostTo a rest = { s with line := line, dir := dir, lane := lane, prm := { s.prm with remote := remote } }
      ∧ line.queue = rest ∧ line.waiting = s.line.waiting := by
  unfold State.lostTo
  split
  · exact ⟨rfl, fun _ => ⟨rfl, rfl⟩, _, s.dir, s.lane, s.prm.remote, rfl, rfl, rfl⟩
  · refine ⟨(sideOf_laneLost (s := s.left rest) a).trans rfl, fun d => ?_, _, _, _, _, rfl, rfl, rfl⟩
    have hside : ((s.left rest).peerLost a).side d = _ := side_laneLost (s := s.left rest) a d _ rfl
    rw [hside]
    split <;> exact ⟨rfl, rfl⟩

theorem laneLost_left (s : State) (a : Nat) (rest : List TxFrame) : (s.left rest).laneLost a = s.laneLost a := by
  unfold State.laneLost
  rw [show (s.left rest).sideOf a = s.sideOf a from rfl]
  cases s.sideOf a with
  | none => rfl
  | some d => cases d <;> rfl

theorem lostTo_settled (hs : s.settled = true) (a : Nat) (rest : List TxFrame) : (s.lostTo a rest).settled = true := by
  obtain ⟨-, -, line, dir, lane, remote, heq, -⟩ := lostTo_keeps s a rest
  rw [heq]
  exact (settled_congr rfl rfl rfl rfl rfl rfl rfl rfl).trans hs

theorem lineRoom_left (h : s.host.state ≠ .conflict ∧ rest.length < 16 ∧ s.line.waiting = []) {u : State} (hh : u.host = s.host)
    (hq : u.line.queue = rest) (hw : u.line.waiting = s.line.waiting) : u.lineRoom = true := by
  obtain ⟨hc, hlen, hnone⟩ := h
  rw [State.lineRoom, State.txRoom, hh, hq, hw, hnone]
  simp only [List.isEmpty_nil, Bool.and_true, Bool.and_eq_true, bne_iff_ne, ne_eq, decide_eq_true_eq]
  exact ⟨hc, hlen⟩

/-- A failed AWARD moves the award on, if the request is awarded to its station (R60). -/
theorem onDecline_other {id : ReqId} {a : Nat} (h : ∀ o, s.origin id = some o → o.state ≠ .awarding ∨ o.awardee ≠ some a) :
    onDecline a id s = s := by
  unfold onDecline
  split
  next o ho => exact if_neg fun ⟨h1, h2⟩ => (h o ho).elim (fun e => e h1) fun e => e h2
  next => rfl

/-- The failure of a frame whose block does nothing about it (R34). -/
theorem undelivered_quiet {b : Body} (h : b.kind ∈ [.holding, .decline, .revoke, .cancel, .progress, .result, .notHere]) (a : Nat) (s : State) :
    b.marksDown = false ∧ undelivered a b s = s := by
  cases b
  case holding | decline | revoke | cancel | progress | result | notHere => exact ⟨rfl, rfl⟩
  all_goals simp [Body.kind] at h

/-- A DEPOSIT that could not be delivered joins the undelivered ones, or drops the oldest of six (R140). -/
theorem keepDeposit_room {d : Side} (h : (s.side d).undelivered.length < 6) (r : Routing) :
    keepDeposit d r s = updSide d (fun x => { x with undelivered := x.undelivered ++ [r] }) s := by
  unfold keepDeposit
  split
  next hn => exact updSide_congr (by rw [hn]; rfl)
  next old rest hl =>
    rw [hl] at h
    exact (if_pos h).trans (updSide_congr (by rw [hl]))

theorem keepDeposit_full {d : Side} {old : Routing} {l : List Routing} (hl : (s.side d).undelivered = old :: l) (h : l.length = 5)
    (r : Routing) : keepDeposit d r s = postLane (.laneOverrun d old.volser old.mountId old.hops 6 .undelivered)
      (updSide d (fun x => { x with undelivered := l ++ [r] }) s) := by
  simp only [keepDeposit, hl, h]
  rfl

/-- Settles O47: the attempts by the phase of the line, and a failure by `exec_fails` and what the frame's block does. -/
theorem frameInService : Obligations.FrameInService := by
  intro s g rest hs hr hq idle out
  have line {f : State → State} {l : LineUnit} (h : f s = { s with line := l }) : runEvent f s = .next { s with line := l } :=
    runEvent_ends hr h (settled_of_same hs rfl rfl rfl rfl)
  refine ⟨fun hp hst => ⟨fun hb => ?begun, fun a hb hd hk => ?unicast, fun hb hd => ?broadcast⟩,
    fun hp => ⟨fun hn => ?collides, fun hd hn => ?lastCollides, fun hd => ?sent, fun a hd => ?waits⟩,
    fun hp => ⟨fun hn => ?retries, fun f hh hm => ?ack⟩, fun a i hd hi => ?fails⟩
  case begun => exact line (by rw [attemptStart_eq hq hp hst, hb]; rfl)
  case unicast => exact line (by rw [attemptStart_eq hq hp hst, hb, beginFrame_unicast hq hd hk]; rfl)
  case broadcast =>
    refine line ?_
    rw [attemptStart_eq hq hp hst, hb]
    simp only [beginFrame, hd, hq]
    cases g.body <;> rfl
  case collides => exact line (by rw [attemptCollided, if_pos hp, if_pos hn]; rfl)
  case lastCollides =>
    refine line ?_
    rw [attemptCollided, if_pos hp, if_neg (Nat.not_lt.mpr hn)]
    simp only [frameFailed, hq, hd, leaveQueue_eq hq]
    rfl
  case sent => 
    refine line ((attemptDone_eq hq hp).trans ((congrArg (fun o : Option Nat => o.elim _ _) hd).trans ?_))
    exact leaveQueue_eq (s := sendLine _ s) hq
  case waits => exact line ((attemptDone_eq hq hp).trans (congrArg (fun o : Option Nat => o.elim _ _) hd))
  case retries => exact line (by rw [ackWaitEnded, if_pos hp, if_pos hn])
  case ack =>
    intro t
    have hheard : hear .ack f s = takeAck f.src.toNat f.seq.toNat t := hear_ack hh hm
    refine runEvent_ends (f := hear .ack f) hr (hheard.trans (takeAck_eq (s := t) hq hp _ _)) ?_
    split <;> exact settled_of_same hs rfl rfl rfl rfl
  case fails =>
    intro left lost unbid room
    have hdef : lost = s.lostTo a rest := by
      simp only [lost, State.lostTo]
      refine congrArg (ite _ _) ?_
      rw [State.peerLost, laneLost_left, State.laneLost]
      cases s.sideOf a <;> rfl
    clear_value lost
    subst hdef
    obtain ⟨hside, hrec, line, dir, lane, remote, hlost, hqueue, hwaiting⟩ := lostTo_keeps s a rest
    have hlosts : (s.lostTo a rest).settled = true := lostTo_settled hs a rest
    have hlefts : left.settled = true := settled_of_same hs rfl rfl rfl rfl
    have left_ends {t : State} (hm : g.body.marksDown = false) (h : undelivered a g.body left = t) (ht : t.settled = true) :
        exec i s = .next t := by
      rw [exec_fails hr hq hd hi (t := t) (by rw [hm]; exact h), settle_of_settled ht]
    have lost_settles {t : State} (hm : g.body.marksDown = true) (h : undelivered a g.body (s.lostTo a rest) = t) : exec i s = .next (settle false t) :=
      exec_fails hr hq hd hi (by rw [hm]; exact h)
    have lost_ends {t : State} (hm : g.body.marksDown = true) (h : undelivered a g.body (s.lostTo a rest) = t) (ht : t.settled = true) :
        exec i s = .next t := by
      rw [lost_settles hm h, settle_of_settled ht]
    refine ⟨fun hk => ?quiet, fun id e d hb => ?bidFails, fun id q d hb => ⟨fun hn => ?awardFails, fun o b c l ho hst ha hbids hn hc hroom => ?moves⟩,
      fun id d hb => ⟨fun hn => ?acceptFails, fun m b hm ho hre hheld hans hback hst hh hne => ?revokes⟩,
      fun id v k d c hb => ⟨fun hn => ?fetchFails, fun m hm hst htold hf ho hre hheld hroom hpr => ?transit⟩,
      fun r hb => ⟨fun hn => ?depositFails, fun d hd => ⟨fun hlen => ?kept, fun old l hl hlen => ?overrun⟩⟩,
      fun way n hb => ⟨fun hn => ?creditFails, fun d hd => ?unreported⟩⟩
    case quiet =>
      obtain ⟨hmarks, hidle⟩ := undelivered_quiet hk a left
      exact left_ends hmarks hidle hlefts
    case bidFails => exact left_ends (by rw [hb]; rfl) (by rw [hb]; exact dropBid_eq id left) (settled_of_same hs rfl rfl rfl rfl)
    case awardFails => exact left_ends (by rw [hb]; rfl) (by rw [hb]; exact onDecline_other (s := left) hn) hlefts
    case moves =>
      have hdecl : undelivered a g.body left = moveOn id left := by
        rw [hb]
        simp only [undelivered, awardUndelivered, onDecline, show left.origin id = some o from ho, hst, ha, and_self, if_true]
      obtain ⟨h1, h2, h3, h4, h5, h6⟩ := moveOn_other (s := left) (lineRoom_left hroom rfl rfl rfl) ho hst hbids hn hc
      refine ⟨_, left_ends (by rw [hb]; rfl) hdecl ?_, h1, h2, h3, h4, h5, h6⟩
      rw [h3]
      exact settled_of_same hs rfl rfl rfl rfl
    case acceptFails =>
      exact left_ends (by rw [hb]; rfl) (by rw [hb]; exact (onRevoke_ignored (s := left) hn).trans (dropBid_eq id left))
        (settled_of_same hs rfl rfl rfl rfl)
    case revokes =>
      have hmr : State.mount (updMount id MountRec.revoked (dropBid id left)) id = some m.revoked :=
        mount_updMount_same (s := dropBid id left) revoked_id hm
      have hunt : left.untouched m = false := by
        rw [Bool.eq_false_iff]
        exact fun hu => hne (((untouched_iff _ m).mp hu).2.2 b hh)
      have hturn := turnBack_remote hmr hback hst (answerHeld_false (s := updMount id MountRec.revoked (dropBid id left)) hans) hh hne hheld
      rw [updMount_updMount revoked_id] at hturn
      refine left_ends (by rw [hb]; rfl) ?_ (settled_of_same hs rfl rfl rfl rfl)
      rw [hb]
      refine (onRevoke_turns (s := left) hm ho hre hunt).trans (hturn.trans ?_)
      rw [dropBid_eq]
      rfl
    case fetchFails =>
      refine lost_ends (by rw [hb]; rfl) ?_ hlosts
      rw [hb]
      show fetchUndelivered id (s.lostTo a rest) = s.lostTo a rest
      unfold fetchUndelivered
      split
      next m hm => exact if_neg (hn m (by rw [← hm, hlost]; rfl))
      next => rfl
    case transit =>
      have hml : (s.lostTo a rest).mount id = some m := by rw [hlost]; exact hm
      have hnone (k : PromptKind) : (s.lostTo a rest).mountPrompt id k = none := mountPrompt_empty (by rw [hlost]; exact hpr) id k
      have haddr : (s.lostTo a rest).addr = s.addr := by rw [hlost]; rfl
      have hlroom : (s.lostTo a rest).lineRoom = true := by
        rw [hlost]
        exact lineRoom_left hroom rfl hqueue hwaiting
      obtain ⟨acct, heq, hspool⟩ := failAndClose_told (r := .transit) hml htold hf hre hheld nofun (by rw [haddr]; exact ho) hlroom
        (hnone _) (hnone _)
      have hrow : undelivered a g.body (s.lostTo a rest) = failAndClose id .transit (s.lostTo a rest) := by
        rw [hb]
        simp only [undelivered, fetchUndelivered, hml, hst, if_true]
      refine ⟨_, lost_settles (by rw [hb]; rfl) (hrow.trans heq), ?_⟩
      rw [settle_mnt, settle_acct, settle_line, settle_dir, settle_lane, settle_neg, settle_host, settle_wear]
      have hacct : (s.lostTo a rest).acct = s.acct ∧ (s.lostTo a rest).mnt = s.mnt ∧ (s.lostTo a rest).neg = s.neg ∧ (s.lostTo a rest).host = s.host ∧ (s.lostTo a rest).wear = s.wear := by
        rw [hlost]
        exact ⟨rfl, rfl, rfl, rfl, rfl⟩
      obtain ⟨hacct, hmnt, hneg, hhost, hwear⟩ := hacct
      rw [hacct] at hspool
      exact ⟨by rw [hmnt], by rw [hmnt], hspool, rfl, rfl, rfl, hneg, hhost, hwear⟩
    case depositFails =>
      refine lost_ends (by rw [hb]; rfl) ?_ hlosts
      rw [hb]
      simp only [undelivered, depositUndelivered, show (s.lostTo a rest).sideOf a = none from hside.trans hn]
    case creditFails =>
      refine lost_ends (by rw [hb]; rfl) ?_ hlosts
      rw [hb]
      simp only [undelivered, creditUndelivered, show (s.lostTo a rest).sideOf a = none from hside.trans hn]
    case unreported =>
      refine lost_ends (by rw [hb]; rfl) ?_ (by cases d <;> exact settled_of_same hlosts rfl rfl rfl rfl)
      rw [hb]
      simp only [undelivered, creditUndelivered, show (s.lostTo a rest).sideOf a = some d from hside.trans hd]
      rfl
    all_goals
      have hrow : undelivered a g.body (s.lostTo a rest) = keepDeposit d r (s.lostTo a rest) := by
        rw [hb]
        simp only [undelivered, depositUndelivered, show (s.lostTo a rest).sideOf a = some d from hside.trans hd]
    case kept =>
      refine lost_ends (by rw [hb]; rfl) (hrow.trans (keepDeposit_room (by rw [(hrec d).1]; exact hlen) r)) ?_
      cases d <;> exact settled_of_same hlosts rfl rfl rfl rfl
    case overrun =>
      refine lost_ends (by rw [hb]; rfl) (hrow.trans (keepDeposit_full ((hrec d).1.trans hl) hlen r)) ?_
      cases d <;> exact settled_of_same hlosts rfl rfl rfl rfl

end
end Sys2Proof.Machine


/-! COMPLETIONs of a pick: the reel in hand, and the label that was read. -/

namespace Sys2Proof.Machine

-- One proof at a time: proofs that wait for each other on threads of their own would reserve more stack than the check allows.
set_option Elab.async false

section
variable {s t : State} {o : ArmOrder}

/-! ### The order in the arm position -/

/-- No queued order has the number of the one in the arm position. -/
def State.inArmOnly (s : State) (o : ArmOrder) : Prop := s.seq.inArm = some o ∧ ∀ q ∈ s.seq.queue, q.number ≠ o.number

/-- The order in the arm position changed (R115). -/
def State.handing (s : State) (o : ArmOrder) : State := { s with seq := { s.seq with inArm := some o } }

theorem updOrder_inArm (h : s.inArmOnly o) (f : ArmOrder → ArmOrder) : updOrder o.number f s = s.handing (f o) := by
  obtain ⟨hin, hq⟩ := h
  have hqueue : updWhere (fun p => decide (p.number = o.number)) f s.seq.queue = s.seq.queue :=
    (List.map_congr_left fun p hp => if_neg (by simpa using hq p hp)).trans (List.map_id' _)
  rw [updOrder, hqueue, hin, State.handing]
  simp only [Option.map_some, if_true]

theorem order_inArm (h : s.inArmOnly o) : s.order o.number = some o := by
  obtain ⟨hin, hq⟩ := h
  rw [State.order, State.orders, hin, List.find?_append, List.find?_eq_none.mpr fun p hp => by simpa using hq p hp]
  simp

theorem inArmOnly_handing (h : s.inArmOnly o) {p : ArmOrder} (hn : p.number = o.number) : (s.handing p).inArmOnly p := by
  refine ⟨rfl, fun q hq => ?_⟩
  rw [hn]
  exact h.2 q hq

/-- An order sent to a cell position (R115, R126). -/
def ArmOrder.toCell (o : ArmOrder) (i : Nat) (use : CellUse) : ArmOrder := { o with
  dst := .cell, cellUse := use, routing := none, laneRetry := false, dstPos := some i, waitingCell := false }

/-- An order that goes to a slot or a drive holds nothing there (R115). -/
theorem releaseDst_none (h : (∃ k, o.dst = .slot k) ∨ ∃ d, o.dst = .drive d) (s : State) : releaseDst o s = s := by
  obtain ⟨k, h⟩ | ⟨d, h⟩ := h <;> simp only [releaseDst, h]

/-- The order in the arm position is sent to the cell, a position free for it (R115, R126, R154). -/
theorem redirect_cell (h : s.inArmOnly o) (hd : (∃ k, o.dst = .slot k) ∨ ∃ d, o.dst = .drive d) {i : Nat} (hw : s.prm.waiters = [])
    (hi : s.emptyCell = some i) (use : CellUse) :
    redirect o.number .cell use none s = { s.handing (o.toCell i use) with
      prm := { s.prm with cells := s.prm.cells.set i (.reserved (.order o.number)) } } := by
  have hgrant {p : ArmOrder} (hp : p.number = o.number) : grantCell i (.order o.number) (s.handing p)
      = { s.handing { p with dstPos := some i, waitingCell := false } with
        prm := { s.prm with cells := s.prm.cells.set i (.reserved (.order o.number)) } } := by
    have hone : State.inArmOnly (setCell i (.reserved (.order o.number)) (s.handing p)) p := inArmOnly_handing h hp
    rw [grantCell, ← hp]
    exact updOrder_inArm (s := setCell i (.reserved (.order p.number)) (s.handing p)) (by rw [hp]; exact hone) _
  have hask (u : State) (hu : u.prm = s.prm) : askCell (.order o.number) u = grantCell i (.order o.number) u := by
    rw [askCell, hu, if_pos (by rw [hw]; rfl), show u.emptyCell = some i by rw [State.emptyCell, hu]; exact hi]
  unfold redirect
  rw [order_inArm h]
  dsimp only
  rw [releaseDst_none hd, updOrder_inArm h]
  exact (hask (s.handing _) rfl).trans (hgrant rfl)

/-! ### The row -/

theorem completion_applies {n : Nat} {r : ArmResult} {sym : Option (List Nat)} (hr : s.pins.resetHeld = false) (h1 : s.seq.arm = .busy)
    (h2 : s.seq.inArm = some o) (hn : o.number = n) (h : applyCompletion o r sym s = t) : exec (.armCompletion n r sym) s = .next (settle false t) := by
  subst hn
  rw [exec_armCompletion]
  exact runEvent_settles hr ((onCompletion_busy h1 h2 r sym).trans h)

/-- A COMPLETION that is not for the order in flight (R119). -/
theorem onCompletion_other {n : Nat} {r : ArmResult} (sym : Option (List Nat))
    (h : s.seq.arm ≠ .busy ∨ ∀ o, s.seq.inArm = some o → o.number ≠ n) : onCompletion n r sym s = postSeq (.armProtocol n r) s := by
  unfold onCompletion
  split
  next o ha hi => exact if_neg fun hn => h.elim (fun e => e ha) fun e => e o hi hn
  next => rfl

/-- A reading of eight symbols. -/
theorem readingOf_eight {sym : Option (List Nat)} {l : List Nat} (hs : sym = some l) (hl : l.length = 8) : readingOf sym = some l := by
  rw [hs, readingOf, if_pos hl]

theorem readRan_iff (o : ArmOrder) : o.readRan = true ↔ Phase.read ∈ o.phases := by
  rw [ArmOrder.readRan, List.contains_iff_mem]

/-- A COMPLETION is a fault by its result and its order (R117). -/
theorem faults_iff (o : ArmOrder) (r : ArmResult) (sym : Option (List Nat)) : o.faults r sym = true
    ↔ r = .gripFault ∨ r = .armFault ∨ (r = .destOccupied ∧ (o.form ≠ .place ∨ o.dst = .cell)) ∨ (r = .sourceEmpty ∧ o.form = .place)
      ∨ (r = .ok ∧ Phase.read ∈ o.phases ∧ ∀ l, sym = some l → l.length ≠ 8) := by
  have hnone : (readingOf sym).isNone = true ↔ ∀ l, sym = some l → l.length ≠ 8 := by
    cases sym with
    | none => simp [readingOf]
    | some l => by_cases h : l.length = 8 <;> simp [readingOf, h]
  rw [← readRan_iff, ← hnone]
  cases r <;> cases hf : o.form <;> simp [ArmOrder.faults, hf]

/-- A reading that the search answers with an outcome, where READ ran (R127, R128). -/
def ArmOrder.reads (o : ArmOrder) (h : Hint) (sym : Option (List Nat)) (out : LabelOutcome) : Prop := Phase.read ∈ o.phases
  ∧ ∃ l, sym = some l ∧ l.length = 8 ∧ labelSearch (if o.form = .pick then o.volser else none) h l = out

/-- The label is found, or was not read (R123). -/
def ArmOrder.finds (o : ArmOrder) (h : Hint) (sym : Option (List Nat)) (g : Hint) : Prop :=
  (Phase.read ∉ o.phases ∧ g = h) ∨ o.reads h sym (.found g)

theorem reads_faults {h : Hint} {sym : Option (List Nat)} {out : LabelOutcome} (hr : o.reads h sym out) : o.faults .ok sym = false := by
  obtain ⟨-, l, hl, hlen, -⟩ := hr
  rw [Bool.eq_false_iff, ne_eq, faults_iff]
  rintro (h | h | ⟨h, -⟩ | ⟨h, -⟩ | ⟨-, -, h⟩)
  case inr.inr.inr.inr => exact h l hl hlen
  all_goals nomatch h

theorem unread_faults {sym : Option (List Nat)} (h : Phase.read ∉ o.phases) : o.faults .ok sym = false := by
  rw [Bool.eq_false_iff, ne_eq, faults_iff]
  rintro (h | h | ⟨h, -⟩ | ⟨h, -⟩ | ⟨-, hr, -⟩)
  case inr.inr.inr.inr => exact h hr
  all_goals nomatch h

theorem applyCompletion_pick {sym : Option (List Nat)} (hp : o.form = .pick) (hf : o.faults .ok sym = false) :
    applyCompletion o .ok sym s = pickOk o ((readingOf sym).getD []) s := by
  simp only [applyCompletion, hf, Bool.false_eq_true, if_false, hp]

/-- A pick whose label was read, by what the search answers (R123, R126, R130). -/
theorem applyCompletion_reads {sym : Option (List Nat)} {out : LabelOutcome} (hp : o.form = .pick) (hr : o.reads s.seq.hint sym out) :
    applyCompletion o .ok sym s = match out with
      | .found h => pickDone o (setHint h s)
      | .accepted _ h => pickDone o (setHint h s)
      | .mismatch v => pickMismatch o v s
      | .unreadable => if o.repeatUsed then pickUnreadable o s else repeatRead o s := by
  rw [applyCompletion_pick hp (reads_faults hr)]
  obtain ⟨hread, l, hl, hlen, hout⟩ := hr
  rw [if_pos hp] at hout
  rw [pickOk, if_pos ((readRan_iff o).mpr hread), readingOf_eight hl hlen, Option.getD_some, hout]
  cases out <;> rfl

theorem applyCompletion_finds {sym : Option (List Nat)} {g : Hint} (hp : o.form = .pick) (hf : o.finds s.seq.hint sym g) :
    applyCompletion o .ok sym s = pickDone o (setHint g s) := by
  obtain ⟨hread, rfl⟩ | hr := hf
  · rw [applyCompletion_pick hp (unread_faults hread), pickOk, if_neg (fun e => hread ((readRan_iff o).mp e))]
    rfl
  · exact applyCompletion_reads hp hr

/-! ### The reel in hand -/

/-- The order of a pick as its reel is in hand (R123). -/
def ArmOrder.placing (o : ArmOrder) : ArmOrder := { o with form := .place, phases := [.moveTo, .place] }

/-- A reel is in hand (R123). -/
def State.holds (s : State) (o : ArmOrder) : State := { s with seq := { s.seq with inArm := some o, arm := .holding } }

theorem holds_inArmOnly (h : s.inArmOnly o) {p : ArmOrder} (hn : p.number = o.number) : (s.holds p).inArmOnly p := by
  refine ⟨rfl, fun q hq => ?_⟩
  rw [hn]
  exact h.2 q hq

theorem reelInHand_slot {k : Nat} (h : o.src = .slot k) (s : State) : reelInHand o s = s.holds o.placing := by
  obtain ⟨⟩ := o
  cases h
  next mountId _ _ _ _ _ _ _ _ _ _ _ => cases mountId <;> rfl

/-- The pick-back of a record has its reel in hand (R91, R123). -/
theorem reelInHand_drive {d : Nat} {id : ReqId} (hs : o.src = .drive d) (hid : o.mountId = some id) (s : State) :
    reelInHand o s = emptyDrive d id (s.holds o.placing) := by
  obtain ⟨⟩ := o
  cases hs
  cases hid
  rfl

/-- The head of a lane is in hand, and leaves the lane (R123, R145). -/
theorem reelInHand_mouth {d : Side} (h : o.src = .mouth d) (s : State) : reelInHand o s = headGone d (s.holds o.placing) := by
  obtain ⟨⟩ := o
  cases h
  next mountId _ _ _ _ _ _ _ _ _ _ _ => cases mountId <;> rfl

theorem nextHead_away (h : ∀ d, o.src ≠ .mouth d) (s : State) : nextHead o s = s := by
  unfold nextHead
  split
  next d _ hd => exact absurd hd (h d)
  next => rfl

theorem homeCheck_plain (h : o.purpose ≠ .returnLeg ∨ ∃ k, o.src = .slot k) (s : State) : homeCheck o s = s := by
  unfold homeCheck
  split
  next hp hd _ _ => exact h.elim (fun e => absurd hp e) fun ⟨k, e⟩ => nomatch hd.symm.trans e
  next hp hd _ _ => exact h.elim (fun e => absurd hp e) fun ⟨k, e⟩ => nomatch hd.symm.trans e
  next => rfl

theorem homeCheck_drive {d j k : Nat} {v : Volser} (hs : o.src = .drive d) (hp : o.purpose = .returnLeg) (hd : o.dst = .slot j)
    (hv : o.volser = some v) (hk : s.returnCheck v = some k) :
    homeCheck o s = updOrder o.number (fun o => { o with dst := .slot k }) s := by
  simp only [homeCheck, hp, hs, hd, hv, hk]

/-- A pick from a slot has its reel in hand (R123). -/
theorem pickDone_slot {k : Nat} (h : o.src = .slot k) (s : State) : pickDone o s = s.holds o.placing := by
  rw [pickDone, reelInHand_slot h, homeCheck_plain (.inr ⟨k, h⟩), nextHead_away (by rw [h]; nofun)]

theorem emptyDrive_mnt (d : Nat) (id : ReqId) (s : State) : emptyDrive d id s = { s with mnt := (emptyDrive d id s).mnt } := by
  unfold emptyDrive
  cases s.drive d with
  | none => rfl
  | some r => dsimp only; split <;> rfl

/-- A pick-back whose return check supplies its slot has its reel in hand, the drive told (R7, R123). -/
theorem pickDone_drive {d j k : Nat} {id : ReqId} {v : Volser} (h : s.inArmOnly o) (hs : o.src = .drive d) (hp : o.purpose = .returnLeg)
    (hd : o.dst = .slot j) (hv : o.volser = some v) (hid : o.mountId = some id) (hk : s.returnCheck v = some k) :
    pickDone o s = { s.holds { o.placing with dst := .slot k } with mnt := (emptyDrive d id s).mnt } := by
  have hhand : reelInHand o s = { s.holds o.placing with mnt := (emptyDrive d id (s.holds o.placing)).mnt } :=
    (reelInHand_drive hs hid s).trans (emptyDrive_mnt ..)
  have hmnt : (emptyDrive d id (s.holds o.placing)).mnt = (emptyDrive d id s).mnt := by
    unfold emptyDrive
    rw [show (s.holds o.placing).drive d = s.drive d from rfl]
    cases s.drive d with
    | none => rfl
    | some r => dsimp only; split <;> rfl
  rw [pickDone, hhand, nextHead_away (by rw [hs]; nofun), hmnt]
  have hk' : State.returnCheck { s.holds o.placing with mnt := (emptyDrive d id s).mnt } v = some k := hk
  rw [homeCheck_drive hs hp hd hv hk']
  exact updOrder_inArm (s := { s.holds o.placing with mnt := (emptyDrive d id s).mnt }) (o := o.placing) (holds_inArmOnly h rfl) _

/-- The head of a relay is in hand, the lane empty behind it and its credit returned (R123, R145). -/
theorem pickDone_relay {d : Side} (hs : o.src = .mouth d) (hp : o.purpose = .relay) {u : State} (hg : headGone d (s.holds o.placing) = u)
    (hempty : (u.side d).inbound = []) : pickDone o s = u := by
  rw [pickDone, reelInHand_mouth hs, hg, homeCheck_plain (.inl (by rw [hp]; nofun))]
  unfold nextHead
  split
  next d' _ hd' =>
    cases hs.symm.trans hd'
    rw [queueHead, hempty]
    rfl
  next => rfl

/-- The only head leaves its lane, and a CREDIT is queued for the neighbour, which is UP (R145). -/
theorem headGone_only {d : Side} {x : Routing} (hx : (s.side d).inbound = [x]) (hup : (s.peer (s.neighbour d)).presence = .up)
    (hq : ∀ g ∈ s.line.queue, g.body.kind ≠ .credit) (hroom : s.lineRoom = true) :
    headGone d s = (updSide d (fun y => { y with inbound := [], pickQueued := none }) s).queueing (some (s.neighbour d)) (.credit d.opposite 1) := by
  have hw : s.line.waiting = [] := by
    rw [State.lineRoom, State.txRoom, Bool.and_eq_true, Bool.and_eq_true] at hroom
    exact List.isEmpty_iff.mp hroom.2.2
  have hpres : (tableGet s.line.peers (s.neighbour d)).map (·.presence) = some .up := by
    rw [State.peer] at hup
    cases hp : tableGet s.line.peers (s.neighbour d) with
    | none => rw [hp] at hup; exact nomatch hup
    | some p => rw [hp] at hup; exact congrArg some hup
  have hgone : updSide d (fun y => { y with inbound := y.inbound.tail, pickQueued := none }) s
      = updSide d (fun y => { y with inbound := [], pickQueued := none }) s := updSide_congr (by rw [hx]; rfl)
  rw [headGone, hgone, updSide_lane]
  generalize (updSide d _ s).lane = l
  exact (if_pos hpres).trans (offerTo_credit (s := { s with lane := l }) hroom hq hw _ _ _)

/-- A reel that is not where its entry says is MISSING (R9). -/
def State.lostEntry (s : State) (k : Nat) (e : HomeEntry) : State := { s with dir := { s.dir with
  catalog := tablePut s.dir.catalog k { e with state := .missing, mountId := none } } }

theorem markMissing_held {k : Nat} {v : Volser} {e : HomeEntry} (he : s.entry k = some e) (hv : e.volser = v)
    (hst : e.state = .home ∨ e.state = .out ∨ e.state = .retiring) : markMissing k v s = s.lostEntry k e := by
  have hcond : (decide (e.volser = v) && (decide (e.state = .home) || decide (e.state = .out) || decide (e.state = .retiring))) = true := by
    simpa [hv, or_assoc] using hst
  simp only [markMissing, he, if_pos hcond]
  rfl

/-- A record misfiled: it has told RESULT FAILED, and returns its reel (R105). -/
def MountRec.misfiled (m : MountRec) : MountRec := (m.failedAs .misfiled).returning

theorem recordMisfiled_eq {id : ReqId} {m : MountRec} (hm : s.mount id = some m) (hr : m.resultSent = .none) (hf : m.failure = none)
    (ho : m.originator ≠ s.addr) (hroom : s.lineRoom = true) :
    recordMisfiled id s = (updMount id MountRec.misfiled s).queueing (some m.originator) (.result id (.failed .misfiled) 0) := by
  rw [recordMisfiled, failRecord_tells (r := .misfiled) hm hr hf nofun ho hroom]
  have h := updMount_updMount (g := MountRec.returning) (failedAs_id .misfiled) id s
  exact congrArg (fun u => State.queueing (some m.originator) (.result id (.failed .misfiled) 0) u) h

/-- A MISMATCH of a pick from a slot to a drive: the reel goes to the cell, its entry MISSING and its record failed (R73, R105, R126). -/
theorem pickMismatch_slot {k i : Nat} (h : s.inArmOnly o) (hs : o.src = .slot k) (hd : ∃ d, o.dst = .drive d) {v w : Volser}
    (hv : o.volser = some v) (hq : o.queuedBy = .mount) {id : ReqId} {m : MountRec} (hid : o.mountId = some id) (hm : s.mount id = some m)
    (hw : s.prm.waiters = []) (hi : s.emptyCell = some i) {e : HomeEntry} (he : s.entry k = some e) (hev : e.volser = v)
    (hst : e.state = .home ∨ e.state = .out ∨ e.state = .retiring) :
    pickMismatch o w s = recordMisfiled id { (s.lostEntry k e).holds (o.placing.toCell i (.wrongLabel w)) with
      prm := { s.prm with cells := s.prm.cells.set i (.reserved (.order o.number)) } } := by
  have hmiss : markMisread o (reelInHand o s) = (s.lostEntry k e).holds o.placing := by
    rw [reelInHand_slot hs]
    simp only [markMisread, hs, hv]
    exact markMissing_held (s := s.holds o.placing) he hev hst
  have hcell := redirect_cell (s := (s.lostEntry k e).holds o.placing) (o := o.placing) (holds_inArmOnly (s := s.lostEntry k e) h rfl) (.inr hd)
    hw hi (.wrongLabel w)
  have hrec (u : State) (hu : u.mnt = s.mnt) : u.recordOf o = some m := by
    simp only [State.recordOf, ArmOrder.ofMount, hq, decide_true, Bool.true_or, if_true, hid, Option.bind_some, State.mount, hu]
    exact hm
  have hmid := (mount_spec hm).2
  unfold pickMismatch
  rw [hmiss]
  dsimp only
  rw [show redirect o.number .cell (.wrongLabel w) none ((s.lostEntry k e).holds o.placing) = _ from hcell, hq]
  dsimp only
  split
  next m' hm' =>
    cases (hrec _ rfl).symm.trans hm'
    rw [hmid]
    rfl
  next hn => exact nomatch (hrec _ rfl).symm.trans hn

/-- A second UNREADABLE of a pick from a slot to a drive: the reel goes to the cell (R126, R130). -/
theorem pickUnreadable_slot {k i : Nat} (h : s.inArmOnly o) (hs : o.src = .slot k) (hd : ∃ d, o.dst = .drive d) (hq : o.queuedBy ≠ .negotiation)
    (hw : s.prm.waiters = []) (hi : s.emptyCell = some i) :
    pickUnreadable o s = { s.holds (o.placing.toCell i .unreadable) with
      prm := { s.prm with cells := s.prm.cells.set i (.reserved (.order o.number)) } } := by
  have hcell := redirect_cell (s := s.holds o.placing) (o := o.placing) (holds_inArmOnly h rfl) (.inr hd) hw hi .unreadable
  unfold pickUnreadable
  rw [reelInHand_slot hs]
  dsimp only
  rw [show redirect o.number .cell .unreadable none (s.holds o.placing) = _ from hcell]
  split
  next hn => exact absurd hn hq
  all_goals rfl

/-- The first UNREADABLE has the label read again (R130). -/
theorem applyCompletion_repeats {sym : Option (List Nat)} (hf : o.form ≠ .place) (hr : o.reads s.seq.hint sym .unreadable)
    (hn : o.repeatUsed = false) : applyCompletion o .ok sym s = repeatRead o s := by
  cases hform : o.form with
  | place => exact absurd hform hf
  | pick => exact (applyCompletion_reads hform hr).trans (if_neg (by rw [hn]; exact Bool.false_ne_true))
  | readOnly =>
    have hfaults := reads_faults hr
    obtain ⟨-, l, hl, hlen, hout⟩ := hr
    rw [if_neg (by rw [hform]; nofun)] at hout
    simp only [applyCompletion, hfaults, Bool.false_eq_true, if_false, hform, readOk, readingOf_eight hl hlen, Option.getD_some, hout, hn]

end
end Sys2Proof.Machine


/-! COMPLETIONs of a place, and DEST OCCUPIED. -/

namespace Sys2Proof.Machine

-- One proof at a time: proofs that wait for each other on threads of their own would reserve more stack than the check allows.
set_option Elab.async false

section
variable {s t : State} {o : ArmOrder}

/-! ### A place that completes -/

/-- The arm is free, its place done (R123). -/
def State.done (s : State) : State := { s with seq := { s.seq with inArm := none, arm := .idle } }

theorem applyCompletion_place {sym : Option (List Nat)} (hf : o.form = .place) (hr : Phase.read ∉ o.phases) :
    applyCompletion o .ok sym s = placeOk o s := by
  simp only [applyCompletion, unread_faults hr, Bool.false_eq_true, if_false, hf]

theorem recordOf_unowned (h : o.ofMount = false) (s : State) : s.recordOf o = none := by
  rw [State.recordOf, h]
  rfl

theorem recordOf_mount (hq : o.queuedBy = .mount) {id : ReqId} (hid : o.mountId = some id) (s : State) : s.recordOf o = s.mount id := by
  simp only [State.recordOf, ArmOrder.ofMount, hq, decide_true, Bool.true_or, if_true, hid, Option.bind_some]

theorem closeOf_unowned (h : o.ofMount = false) (s : State) : closeOf o s = s := by rw [closeOf, recordOf_unowned h]

theorem closeOf_record {m : MountRec} {u : State} (h : u.recordOf o = some m) : closeOf o u = closeRecord m.id u := by rw [closeOf, h]

theorem answerPlace_quiet (h : o.cellUse ≠ .ring) (s : State) : answerPlace o false s = s := by
  simp only [answerPlace, Bool.false_eq_true, if_false, if_neg h]
  cases o.mountId <;> rfl

theorem placeOk_slot {k : Nat} (h : o.dst = .slot k) (s : State) : placeOk o s = placedInSlot o k s.done := by
  simp only [placeOk, h]
  rfl

theorem placeOk_mouth {d : Side} (h : o.dst = .mouth d) (s : State) : placeOk o s = closeOf o (depositReel d o s.done) := by
  simp only [placeOk, h]
  rfl

theorem placeOk_drive {d : Nat} {id : ReqId} (h : o.dst = .drive d) (hid : o.mountId = some id) (s : State) :
    placeOk o s = answerPlace o (placedOnDrive d id s.done).2 (placedOnDrive d id s.done).1 := by
  simp only [placeOk, h, hid]
  rfl

theorem placeOk_cell {i : Nat} {v : Volser} (h : o.dst = .cell) (hp : o.dstPos = some i) (hv : o.volser = some v) (s : State) :
    placeOk o s = answerPlace o false (placedInCell o v i s.done) := by
  simp only [placeOk, h, hp, hv]
  rfl

/-! ### A home slot -/

/-- A reel is back in its slot, and its counts go to the Wear Monitor (R8). -/
def State.cameHome (s : State) (k : Nat) (v : Volser) (e : HomeEntry) (ring : Bool) (counts : Option Counts) : State := { s with
  dir := { s.dir with catalog := tablePut s.dir.catalog k { e with state := .home, mountId := none, ring := ring } }
  wear := { s.wear with handovers := s.wear.handovers ++ [⟨k, v, counts⟩] } }

theorem returnCompletion_home {k : Nat} {v : Volser} {e : HomeEntry} (he : s.entry k = some e) (hv : e.volser = v)
    (hst : e.state = .out ∨ e.state = .missing) (ring : Bool) (counts : Option Counts) :
    returnCompletion k v ring counts s = s.cameHome k v e ring counts := by
  have hcond : (decide (e.volser = v) && (decide (e.state = .out) || decide (e.state = .missing))) = true := by simpa [hv] using hst
  simp only [returnCompletion, he, if_pos hcond]
  rfl

/-- A reel that came by lane is home (R8, R145). -/
theorem placedInSlot_lane {k : Nat} {v : Volser} {x : Routing} {e : HomeEntry} (ho : o.ofMount = false) (hv : o.volser = some v)
    (hx : o.routing = some x) (he : s.entry k = some e) (hev : e.volser = v) (hst : e.state = .out ∨ e.state = .missing) :
    placedInSlot o k s = s.cameHome k v e x.ring x.counts := by
  simp only [placedInSlot, hv, State.carried, hx, closeOf_unowned ho]
  exact returnCompletion_home he hev hst ..

/-- A record's reel is home, and the record closes (R8, R105). -/
theorem placedInSlot_record {k : Nat} {v : Volser} {e : HomeEntry} {id : ReqId} {m : MountRec} (hq : o.queuedBy = .mount)
    (hid : o.mountId = some id) (hm : s.mount id = some m) (hv : o.volser = some v) (hx : o.routing = none) (he : s.entry k = some e)
    (hev : e.volser = v) (hst : e.state = .out ∨ e.state = .missing) :
    placedInSlot o k s = closeRecord id (s.cameHome k v e (decide (m.ring ≠ .absent)) m.counts) := by
  have hring : (m.ring != RingState.absent) = decide (m.ring ≠ .absent) := by rw [Bool.eq_iff_iff]; simp
  have hrec (u : State) (hu : u.mnt = s.mnt) : u.recordOf o = some m := by
    rw [recordOf_mount hq hid, State.mount, hu]
    exact hm
  simp only [placedInSlot, hv, State.carried, hx, hrec s rfl, hring, returnCompletion_home he hev hst]
  exact (closeOf_record (hrec (s.cameHome k v e _ _) rfl)).trans (by rw [(mount_spec hm).2])

/-! ### A drive -/

/-- A record enters RING or LOADING, and PROGRESS is queued for its originator, another station (R96). -/
theorem enterStage_tells {id : ReqId} {m : MountRec} {st : Stage} (hst : st = .ring ∨ st = .loading) (hm : s.mount id = some m)
    (hr : m.resultSent = .none) (hf : m.failure = none) (ho : m.originator ≠ s.addr) (hroom : s.lineRoom = true) :
    enterStage id st s = (updMount id (fun m => { m with stage := st }) s).queueing (some m.originator) (.progress id) := by
  have hreports : m.reports = true := by
    simp only [MountRec.reports, hr, hf]
    rfl
  obtain rfl | rfl := hst
  all_goals
    simp only [enterStage, hm, hreports, if_true]
    exact sendProgress_other (s := updMount id _ s) ho hroom id

/-- A record that waits for its drive to say READY (R102). -/
def MountRec.loadWaits (n : Nat) (m : MountRec) : MountRec := { m with loadWait := some n }

theorem loadWaits_id (n : Nat) (m : MountRec) : (m.loadWaits n).id = m.id := rfl

/-- A record's reel is on its drive: LOAD is sent and the load wait runs (R91, R102). -/
theorem placedOnDrive_loads {d : Nat} {id : ReqId} {m : MountRec} {x : DriveRec} (hm : s.mount id = some m) (hd : m.drive = d)
    (ht : m.turningBack = false) (hx : s.drive d = some x) (hst : x.state = .allocated) (hxi : x.mountId = some id)
    (hr : m.resultSent = .none) (hf : m.failure = none) (ho : m.originator ≠ s.addr) (hroom : s.lineRoom = true) :
    placedOnDrive d id s = ({ s with mnt := { s.mnt with
      drives := s.mnt.drives.modify d fun y => { y with state := .loading, aboard := .threaded }
      mounts := updWhere (fun x => x.id = id) (fun m => { m with loadWait := some s.timers.loadWait, stage := .loading }) s.mnt.mounts
      sent := s.mnt.sent ++ [LoadMessage.mk d m.volser m.write] } }.queueing (some m.originator) (.progress id), false) := by
  have hload : placedOnDrive d id s = (startLoading d m s, false) := by
    simp only [placedOnDrive, hm, hx, hd, ne_eq, not_true_eq_false, if_false, hst, hxi, and_self, if_true, ht, Bool.false_eq_true,
      reduceCtorEq, false_and]
  have hmid := (mount_spec hm).2
  rw [hload, startLoading, hmid]
  have hm1 := mount_updMount_same (s := sendLoad ⟨d, m.volser, m.write⟩ (updDrive d (fun r => { r with state := .loading, aboard := .threaded }) s))
    (loadWaits_id s.timers.loadWait) hm
  have htells := enterStage_tells (.inr rfl) hm1 hr hf ho hroom
  rw [updMount_updMount (loadWaits_id _)] at htells
  exact congrArg (·, false) htells

/-! ### A mouth -/

/-- A reel at a mouth spends its credit, and goes on in a DEPOSIT (R140). -/
theorem depositReel_sends {d : Side} {x : Routing} (hx : o.routing = some x) (hroom : s.lineRoom = true) :
    depositReel d o s = (updSide d (fun y => { y with holders := dropFirst o.number y.holders, requests := dropFirst o.number y.requests }) s).queueing
      (some (s.neighbour d)) (.deposit { x with hops := min 30 (x.hops + 1) }) := by
  have hnb (g : SideRec → SideRec) : (updSide d g s).neighbour d = s.neighbour d := by cases d <;> rfl
  simp only [depositReel, hx, spendCredit, hnb]
  rw [updSide_lane]
  generalize (updSide d _ s).lane = l
  rw [offerTo, offerTx_queueing (s := { s with lane := l }) hroom (by simp [Body.kind]), frameEntered_deposit rfl rfl]
  rfl

/-! ### The cell -/

/-- A reel in the cell, named by the prompt that now stands for it (R122, R156). -/
def State.posts (s : State) (i : Nat) (v : Volser) (p : Prompt) : State := { s with prm := { s.prm with
  prompts := s.prm.prompts ++ [{ p with
    number := s.nextPrompt, cellPos := some i, posted := s.clock, timerStart := some s.clock }]
  counter := (s.nextPrompt + 1) % 256, cells := s.prm.cells.set i (.holding (.prompt s.nextPrompt) (some v)) } }

theorem postCellReel_eq {p : Prompt} (h1 : p.stage = .queued) (h2 : p.answer = .none) (h3 : p.notice = .none) (v : Volser) (i : Nat)
    (s : State) : postCellReel p v i s = s.posts i v p := by
  obtain ⟨⟩ := p
  cases h1
  cases h2
  cases h3
  rfl

/-- A ring detour's reel is in the cell: the record's stage is RING and its prompt posted (R101). -/
theorem ringPlaced_posts {id : ReqId} {m : MountRec} {i : Nat} (hm : s.mount id = some m) (ht : m.turningBack = false) (hr : m.resultSent = .none)
    (hf : m.failure = none) (ho : m.originator ≠ s.addr) (hroom : s.lineRoom = true) :
    ringPlaced id i s = ((updMount id (fun m => { m with stage := .ring }) s).queueing (some m.originator) (.progress id)).posts i m.volser
      { Prompt.blank .ring m.volser with drive := some m.drive, mountId := some id } := by
  simp only [ringPlaced, hm, ht, Bool.false_eq_true, if_false, enterStage_tells (.inl rfl) hm hr hf ho hroom]
  exact postCellReel_eq rfl rfl rfl ..

theorem ringTurned_stays {id : ReqId} (h : ∀ m, s.mount id = some m → m.turningBack = false) : ringTurned id s = s := by
  unfold ringTurned
  split
  next m _ hm _ => exact if_neg (by rw [h m hm]; exact Bool.false_ne_true)
  next => rfl

/-- The arm's choice, made once, is not made again (R116). -/
theorem settle_selectArm (k : Bool) (s : State) : settle k (selectArm s) = settle k s := by
  rw [settle, settle, selectArm_of_settled (selectArm_armSettled s)]

/-! ### DEST OCCUPIED -/

theorem applyCompletion_occupied {sym : Option (List Nat)} (hf : o.form = .place) (hd : o.dst ≠ .cell) :
    applyCompletion o .destOccupied sym s = destOccupied o s := by
  have hfa : o.faults .destOccupied sym = false := by
    rw [Bool.eq_false_iff, ne_eq, faults_iff]
    rintro (h | h | ⟨-, h⟩ | ⟨h, -⟩ | ⟨h, -⟩)
    case inr.inr.inl => exact h.elim (fun e => e hf) hd
    all_goals nomatch h
  simp only [applyCompletion, hfa, Bool.false_eq_true, if_false]

/-- The slot is occupied: its entry is MISSING and the reel in hand goes to the cell (R125, R126). -/
theorem destOccupied_slot {k i : Nat} {v : Volser} {e : HomeEntry} (h : s.inArmOnly o) (hd : o.dst = .slot k) (hv : o.volser = some v)
    (he : s.entry k = some e) (hev : e.volser = v) (hst : e.state = .home ∨ e.state = .out ∨ e.state = .retiring)
    (hw : s.prm.waiters = []) (hi : s.emptyCell = some i) :
    destOccupied o s = { (s.lostEntry k e).holds (o.toCell i .slotOccupied) with
      prm := { s.prm with cells := s.prm.cells.set i (.reserved (.order o.number)) } } := by
  have hmiss : markMissing k v (setInArm o .holding s) = (s.lostEntry k e).holds o := markMissing_held (s := s.holds o) he hev hst
  simp only [destOccupied, hd, hv, hmiss]
  exact redirect_cell (s := (s.lostEntry k e).holds o) (holds_inArmOnly (s := s.lostEntry k e) h rfl) (.inl ⟨k, hd⟩) hw hi .slotOccupied

/-- The mouth is occupied: the reel waits for its lane (R125). -/
theorem destOccupied_mouth {d : Side} (h : s.inArmOnly o) (hd : o.dst = .mouth d) : destOccupied o s = s.holds { o with laneRetry := true } := by
  have hflag := updOrder_inArm (s := s.holds o) (holds_inArmOnly h rfl) fun o => { o with laneRetry := true }
  unfold destOccupied
  split
  next hd' => exact nomatch hd.symm.trans hd'
  next hd' => exact nomatch hd.symm.trans hd'
  next => exact hflag
  next hd' => exact nomatch hd.symm.trans hd'

/-- A record that has lost its drive: it has told RESULT FAILED, turned back and returns its reel (R105, R107). -/
def MountRec.driveLost (m : MountRec) : MountRec := { m.failedAs .driveLost with turningBack := true, stage := .returning, driveHeld := false }

/-- The leg of a record that turns back with the reel in hand goes to its home slot (R105, R108). -/
theorem turnLeg_hand {d k : Nat} {id : ReqId} {m : MountRec} (hm : s.mount id = some m) (ho : s.orderOf id = some o) (h : s.inArmOnly o)
    (hp : s.placeIssued o = false) (hdiv : o.diverted = false) (hd : o.dst = .drive d) (hheld : m.driveHeld = true)
    (hh : m.home = some s.addr) (hk : s.returnCheck m.volser = some k) :
    turnLeg id s = { s.handing { o with dst := .slot k, cellUse := .none, routing := none, laneRetry := false } with
      mnt := (updDrive m.drive DriveRec.released (updMount id (fun m => m.returning.undriven) s)).mnt } := by
  have hhome : releaseDrive id (updMount id MountRec.returning s)
      = updDrive m.drive DriveRec.released (updMount id (fun m => m.returning.undriven) s) := by
    have hrel := releaseDrive_held (mount_updMount_same returning_id hm) hheld
    rw [updMount_updMount returning_id] at hrel
    exact hrel
  have hdest : s.checkedDest m = ⟨.slot k, .none, none⟩ := by
    simp only [State.checkedDest, State.returnDest, hk, hh, if_true]
  have hleg : turnLeg id s = redirect o.number (.slot k) .none none (releaseDrive id (updMount id MountRec.returning s)) := by
    simp only [turnLeg, ho, hm, hp, hdiv, hdest, Bool.false_eq_true, if_false]
    rfl
  have hin : State.inArmOnly (updDrive m.drive DriveRec.released (updMount id (fun m => m.returning.undriven) s)) o := h
  have horder := order_inArm hin
  rw [hleg, hhome]
  unfold redirect
  rw [horder]
  dsimp only
  rw [releaseDst_none (.inr ⟨d, hd⟩)]
  exact updOrder_inArm hin _

/-- The drive is occupied: the record fails DRIVE LOST, and the reel in hand goes home (R105, R107, R125). -/
theorem destOccupied_drive {d k : Nat} {id : ReqId} {m : MountRec} {x : DriveRec} (h : s.inArmOnly o) (hd : o.dst = .drive d)
    (hid : o.mountId = some id) (hm : s.mount id = some m) (hr : m.resultSent = .none) (hf : m.failure = none)
    (ho : m.originator ≠ s.addr) (hroom : s.lineRoom = true) (horder : s.orderOf id = some o) (hdiv : o.diverted = false)
    (hmd : m.drive = d) (hheld : m.driveHeld = true) (hx : s.drive d = some x) (hh : m.home = some s.addr)
    (hk : s.returnCheck m.volser = some k) :
    destOccupied o s = { (s.holds { o with dst := .slot k, cellUse := .none, routing := none, laneRetry := false }).queueing
        (some m.originator) (.result id (.failed .driveLost) 0) with
      mnt := { s.mnt with
        notices := s.mnt.notices ++ [.driveProtocol d .destOccupied (some x.state)]
        drives := s.mnt.drives.modify d DriveRec.released
        mounts := updWhere (fun x => x.id = id) MountRec.driveLost s.mnt.mounts } } := by
  have hfail : driveProtocol d .destOccupied (failRecord id .driveLost (s.holds o)) = updMount id (MountRec.failedAs .driveLost)
      { (s.holds o).queueing (some m.originator) (.result id (.failed .driveLost) 0) with
        mnt := { s.mnt with notices := s.mnt.notices ++ [.driveProtocol d .destOccupied (some x.state)] } } := by
    rw [failRecord_tells (s := s.holds o) (r := .driveLost) hm hr hf nofun ho hroom]
    exact driveProtocol_fitted (s := (updMount id (MountRec.failedAs .driveLost) (s.holds o)).queueing _ _) (r := x) hx .destOccupied
  generalize hu : ({ (s.holds o).queueing (some m.originator) (.result id (.failed .driveLost) 0) with
    mnt := { s.mnt with notices := s.mnt.notices ++ [.driveProtocol d .destOccupied (some x.state)] } } : State) = u at hfail
  have hmu : u.mount id = some m := by rw [← hu]; exact hm
  have horder' : u.orderOf id = some o := by
    rw [← horder, ← hu]
    simp only [State.orderOf, State.orders, h.1]
    rfl
  have hturned : (updMount id (fun m => (m.failedAs .driveLost).turned) u).mount id = some (m.failedAs .driveLost).turned :=
    mount_updMount_same (f := fun m => (m.failedAs .driveLost).turned) (failedAs_id .driveLost) hmu
  have hleg := turnLeg_hand (s := updMount id (fun m => (m.failedAs .driveLost).turned) u) (k := k) hturned
    (show u.orderOf id = some o from horder') (show u.inArmOnly o by rw [← hu]; exact holds_inArmOnly h rfl)
    (show u.placeIssued o = false by rw [← hu]; exact Bool.and_false _) hdiv hd hheld (by rw [← hu]; exact hh) (by rw [← hu]; exact hk)
  rw [updMount_updMount (f := fun m => (m.failedAs .driveLost).turned) (failedAs_id .driveLost)] at hleg
  have hlost : destOccupied o s = turnLeg id (updMount id MountRec.turned (driveProtocol d .destOccupied (failRecord id .driveLost (s.holds o)))) := by
    simp only [destOccupied, hd, hid, driveOccupied]
    rfl
  rw [hlost, hfail, updMount_updMount (failedAs_id .driveLost)]
  refine hleg.trans ?_
  rw [← hu, ← hmd]
  rfl

end
end Sys2Proof.Machine


/-! Faults of the order in flight, and SOURCE EMPTY. -/

namespace Sys2Proof.Machine

-- One proof at a time: proofs that wait for each other on threads of their own would reserve more stack than the check allows.
set_option Elab.async false

section
variable {s t : State} {o : ArmOrder}

/-! ### An order given up -/

theorem abandonOrder_holdsNothing (h : (∃ k, o.dst = .slot k) ∨ ∃ d, o.dst = .drive d) (hp : o.srcPos = none) (a : ArmState) (s : State) :
    abandonOrder o a s = leaveArm a s := by
  simp only [abandonOrder, releaseDst_none h, releaseSrc, hp]

/-- The cell position an order holds is free again, with nobody waiting for it (R153). -/
theorem abandonOrder_cell (h : s.inArmOnly o) (hd : o.dst = .cell) {i : Nat} (hi : o.dstPos = some i) (hp : o.srcPos = none)
    (hw : s.prm.waiters = []) (a : ArmState) :
    abandonOrder o a s = leaveArm a { s with prm := { s.prm with cells := s.prm.cells.set i .empty } } := by
  have hfree (u : State) (hu : u.prm = s.prm) : freeCell i u = setCell i .empty u := by
    rw [freeCell, hu, hw]
  simp only [abandonOrder, releaseDst, hd, hi, updOrder_inArm h, releaseSrc, hp]
  rw [hfree (s.handing _) rfl]
  rfl

/-! ### Faults -/

theorem applyCompletion_faults {r : ArmResult} {sym : Option (List Nat)} (h : o.faults r sym = true) :
    applyCompletion o r sym s = if o.faultTaken = true then dropOrder o r s
      else postSeq (o.faultNotice r false) (setInArm { o with faultTaken := true } .fault s) := by
  unfold applyCompletion
  rw [if_pos h, armFaulted]

/-- A dropped order from a slot: its reel is MISSING, and the block that queued it is told ARM (R117). -/
theorem dropOrder_slot {r : ArmResult} {j k : Nat} {v : Volser} {e : HomeEntry} (hf : o.form ≠ .readOnly) (hs : o.src = .slot j)
    (hv : o.volser = some v) {u : State} (hu : postSeq (o.faultNotice r true) (abandonOrder o .fault s) = u)
    (hh : u.homeOf v = some (k, e)) (he : u.entry k = some e) (hev : e.volser = v)
    (hst : e.state = .home ∨ e.state = .out ∨ e.state = .retiring) : dropOrder o r s = toldArm o (u.lostEntry k e) := by
  have hmiss : markHeldMissing v u = u.lostEntry k e := by
    simp only [markHeldMissing, hh]
    exact markMissing_held he hev hst
  have hdrop (w : State) : droppedPick o w = w := by
    unfold droppedPick
    split
    · split
      next hd => exact nomatch hs.symm.trans hd
      next hd _ => exact nomatch hs.symm.trans hd
      next => rfl
    · rfl
  unfold dropOrder
  rw [hu, nextHead_away (by rw [hs]; nofun), hdrop]
  split
  next hro => exact absurd hro hf
  next hn _ => exact nomatch hv.symm.trans hn
  next hv' _ =>
    cases hv.symm.trans hv'
    rw [hmiss]

theorem failOf_mount (hq : o.queuedBy = .mount) {id : ReqId} (hid : o.mountId = some id) {m : MountRec} (hm : s.mount id = some m)
    (r : FailReason) : failOf o r s = failAndClose id r s := by
  rw [failOf, recordOf_mount hq hid, hm, ← (mount_spec hm).2]

theorem toldArm_mount (hq : o.queuedBy = .mount) {id : ReqId} (hid : o.mountId = some id) {m : MountRec} (hm : s.mount id = some m) :
    toldArm o s = failAndClose id .arm s := by
  simp only [toldArm, hq]
  exact failOf_mount hq hid hm .arm

/-! ### A retirement abandoned -/

/-- A retirement DUE again, with its notice (R177). -/
def State.dueAgain (s : State) (k : Nat) (v : Volser) (what : WearEvent) : State :=
  let x := setWear k { s.wearOf k with stage := .due } s
  { x with wear := { x.wear with notices := s.wear.notices ++
    [.wear k v what (s.wearOf k).cause (s.wearOf k).lifetime (s.wearOf k).streak] } }

theorem wearOf_setWear (k : Nat) (w : WearRec) (s : State) : (setWear k w s).wearOf k = w := tableGet_set_same ..

theorem abandonRetirement_eq (k : Nat) (v : Volser) (what : WearEvent) (s : State) : abandonRetirement k v what s = s.dueAgain k v what := by
  simp only [abandonRetirement, wearNotice, wearOf_setWear]
  rfl

theorem retireFailed_slot {k : Nat} {v : Volser} (hs : o.src = .slot k) (hv : o.volser = some v) (what : WearEvent) (s : State) :
    retireFailed o what s = s.dueAgain k v what := by
  simp only [retireFailed, hs, Loc.slot?, hv, abandonRetirement_eq]

/-! ### A record that closes -/

/-- What a closure leaves in the mount table, the drives and the spool, the other blocks as they were (R110, R187). -/
def State.closedAs (s : State) (id : ReqId) (m : MountRec) (outcome : ClosedOutcome) (why : Option FailReason) (u : State) : Prop :=
  u.mnt.mounts = s.mnt.mounts.filter (fun x => x.id ≠ id)
  ∧ u.mnt.drives = (if m.driveHeld then s.mnt.drives.modify m.drive DriveRec.released else s.mnt.drives)
  ∧ (∃ a, u.acct.spool = s.acct.spool ++ [a] ∧ a.mountId = id ∧ a.outcome = outcome ∧ a.reason = why
    ∧ a.sequence = s.acct.counter)
  ∧ u.neg = s.neg ∧ u.host = s.host ∧ u.lane = s.lane

theorem closedAs_settle {id : ReqId} {m : MountRec} {outcome : ClosedOutcome} {why : Option FailReason} {u : State}
    (h : s.closedAs id m outcome why u) (k : Bool) : s.closedAs id m outcome why (settle k u) := by
  unfold State.closedAs at *
  rw [settle_mnt, settle_acct, settle_neg, settle_host, settle_lane]
  exact h

/-- A record accounted for with an outcome, and what it leaves. -/
theorem closedAs_accountFor {id : ReqId} {m m' : MountRec} {outcome : ClosedOutcome} {why : Option FailReason} {w : State}
    (hm : s.mount id = some m) (hid : m'.id = m.id) (ho : m'.outcome = outcome) (hf : m'.failure = why) (hmnt : w.mnt = s.mountsClosed m)
    (hacct : w.acct = s.acct) (hneg : w.neg = s.neg) (hhost : w.host = s.host) (hlane : w.lane = s.lane) :
    s.closedAs id m outcome why (accountFor m' w) := by
  have hspool := (accountFor_spool m' w).1
  rw [hacct] at hspool
  rw [accountFor_acct]
  refine ⟨?_, ?_, ⟨_, hspool, hid.trans (mount_spec hm).2, ho, hf, rfl⟩, hneg, hhost, hlane⟩
  · show w.mnt.mounts = _
    rw [hmnt]
    exact mountsClosed_mounts hm
  · show w.mnt.drives = _
    rw [hmnt]
    rfl

/-- A record that fails and closes, its failure told (R105, R106). -/
theorem failAndClose_closed {id : ReqId} {m : MountRec} {r : FailReason} (hm : s.mount id = some m) (hr : m.resultSent = .none)
    (hf : m.failure = none) (hne : r ≠ .revoked) (ho : m.originator ≠ s.addr) (hroom : s.lineRoom = true) (hp : s.prm.prompts = [])
    (hre : m.reachedMounted = false) : s.closedAs id m .failed (some r) (failAndClose id r s)
      ∧ ∃ mnt acct, failAndClose id r s = { ((s.queueing (some m.originator) (.result id (.failed r) 0)).unposted id).unsourced id with
        mnt := mnt, acct := acct } := by
  have hplain := failAndClose_plain hm hr hf hne ho hroom (mountPrompt_empty hp id _) (mountPrompt_empty hp id _)
  have hfail : (m.failedAs r).failure = some r := by
    simp only [MountRec.failedAs, hf]
    rfl
  rw [hplain]
  refine ⟨closedAs_accountFor hm rfl ?_ hfail rfl rfl rfl rfl rfl, _, _, accountFor_acct ..⟩
  rw [outcome_lost (by rw [show (m.failedAs r).reachedMounted = m.reachedMounted from rfl, hre]; nofun), hfail]
  rfl

/-- A record whose reel is home closes (R105, R110). -/
theorem closeRecord_closed {id : ReqId} {m : MountRec} (hm : s.mount id = some m) (hp : s.prm.prompts = []) (hre : m.reachedMounted = true)
    (hc : m.cancelPending = false) : s.closedAs id m .dismounted m.failure (closeRecord id s)
      ∧ ∃ mnt acct, closeRecord id s = { (s.unposted id).unsourced id with mnt := mnt, acct := acct } := by
  rw [closeRecord_plain hm (mountPrompt_empty hp id _) (mountPrompt_empty hp id _)]
  exact ⟨closedAs_accountFor hm rfl (outcome_dismounted hre hc) rfl rfl rfl rfl rfl rfl, _, _, accountFor_acct ..⟩

theorem settle_fault (h : s.seq.arm = .fault) (k : Bool) : (settle k s).seq = s.seq := by
  rw [settle_seq, selectArm, h]

/-! ### SOURCE EMPTY -/

theorem applyCompletion_empty {sym : Option (List Nat)} (hf : o.form ≠ .place) : applyCompletion o .sourceEmpty sym s = sourceEmpty o s := by
  have hfa : o.faults .sourceEmpty sym = false := by
    rw [Bool.eq_false_iff, ne_eq, faults_iff]
    rintro (h | h | ⟨h, -⟩ | ⟨-, h⟩ | ⟨h, -⟩)
    case inr.inr.inr.inl => exact hf h
    all_goals nomatch h
  simp only [applyCompletion, hfa, Bool.false_eq_true, if_false]

/-- A slot without its reel: the entry is MISSING (R9, R124). -/
theorem sourceEmpty_slot {k : Nat} {v : Volser} {e : HomeEntry} (hf : o.form = .pick) (hs : o.src = .slot k) (hv : o.volser = some v)
    {u : State} (hu : abandonOrder o .idle s = u) (he : u.entry k = some e) (hev : e.volser = v)
    (hst : e.state = .home ∨ e.state = .out ∨ e.state = .retiring) :
    sourceEmpty o s = match o.queuedBy with
      | .mount => failOf o .missing (u.lostEntry k e)
      | .negotiation => holderFailed o .missing (u.lostEntry k e)
      | .wear => retireFailed o .abandonedEmpty (u.lostEntry k e)
      | .lane | .audit => u.lostEntry k e := by
  have hnot : ¬ o.form = .readOnly := by rw [hf]; nofun
  unfold sourceEmpty
  rw [if_neg hnot, hu]
  simp only [hs, slotEmpty, hv, markMissing_held he hev hst] <;> cases o.queuedBy <;> rfl

/-- The only head of a lane was not at the mouth: LANE EMPTY is posted, and its credit returned (R124, R146). -/
theorem sourceEmpty_mouth {d : Side} {x : Routing} (hf : o.form = .pick) (hs : o.src = .mouth d) (ho : o.ofMount = false)
    (hab : abandonOrder o .idle s = s.done) (hx : (s.side d).inbound = [x]) (hup : (s.peer (s.neighbour d)).presence = .up)
    (hq : ∀ g ∈ s.line.queue, g.body.kind ≠ .credit) (hroom : s.lineRoom = true) :
    sourceEmpty o s = selectArm ((postLane (.laneEmpty d x.volser x.mountId x.hops false)
      (updSide d (fun y => { y with inbound := [], pickQueued := none }) s.done)).queueing (some (s.neighbour d)) (.credit d.opposite 1)) := by
  have hnot : ¬ o.form = .readOnly := by rw [hf]; nofun
  have hgone := headGone_only (s := postLane (.laneEmpty d x.volser x.mountId x.hops false) s.done) (d := d) (x := x)
    (by rw [← hx]; cases d <;> rfl) (by rw [← hup]; cases d <;> rfl) hq hroom
  have hempty : laneEmpty d false s.done = (postLane (.laneEmpty d x.volser x.mountId x.hops false)
      (updSide d (fun y => { y with inbound := [], pickQueued := none }) s.done)).queueing (some (s.neighbour d)) (.credit d.opposite 1) := by
    simp only [laneEmpty, show (s.done.side d).inbound = [x] by rw [← hx]; cases d <;> rfl, hgone]
    cases d <;> rfl
  have hfail (u : State) : failOf o .transit u = u := by rw [failOf, recordOf_unowned ho]
  have hhead (u : State) (hu : (u.side d).inbound = []) : nextHead o u = u := by
    unfold nextHead
    split
    next d' _ hd' =>
      cases hs.symm.trans hd'
      rw [queueHead, hu]
      rfl
    next => rfl
  unfold sourceEmpty
  rw [if_neg hnot, hab]
  simp only [hs, hfail, hempty]
  refine hhead _ ?_
  rw [selectArm_eq]
  cases d <;> rfl

/-- An audit read of a HOME slot found no reel: the entry is MISSING, with its notice (R11, R132). -/
theorem sourceEmpty_audit {k : Nat} {e : HomeEntry} (hf : o.form = .readOnly) (hs : o.src = .slot k) (hd : o.dst = .slot k)
    (hp : o.srcPos = none) (he : s.entry k = some e) (hst : e.state = .home) (hl : s.seq.audit.next ≤ s.seq.audit.last) :
    sourceEmpty o s = { s.done with
      seq := { s.done.seq with
        notices := s.seq.notices ++ [.auditResult k .isEmpty (some (e.volser, .missing)) none]
        audit := { s.seq.audit with read := s.seq.audit.read + 1, posted := s.seq.audit.posted + 1 } }
      dir := { s.dir with catalog := tablePut s.dir.catalog k { e with state := .missing } } } := by
  have hau : e.audited .slotEmpty = .missing := by simp only [HomeEntry.audited, hst]
  have hend : auditEnded k .slotEmpty s.done = auditResult k .isEmpty none
      (updAudit (fun a => { a with read := a.read + 1 }) (setEntry k { e with state := .missing } s.done)) := by
    simp only [auditEnded, auditReport, show s.done.entry k = some e from he, auditFinding, hst, hau, AuditOutcome.volser]
  have hk : (updAudit (fun a => { a with read := a.read + 1 }) (setEntry k { e with state := .missing } s.done)).entry k
      = some { e with state := .missing } := tableGet_put_same ..
  have habandon : abandonOrder o .idle s = s.done := abandonOrder_slot hd hp .idle s
  simp only [sourceEmpty, hf, if_true, readEnded, hs, Loc.slot?, habandon, hend]
  simp only [auditResult, hk]
  refine (finishAudit_goes_on ?_).trans ?_
  · exact hl
  rfl

end
end Sys2Proof.Machine


/-! What a COMPLETION does, by its result and its order. -/

namespace Sys2Proof.Machine

-- One proof at a time: proofs that wait for each other on threads of their own would reserve more stack than the check allows.
set_option Elab.async false

section
variable {s t : State}

/-! ### The drive a pick-back leaves -/

/-- A record's drive without its reel (R91). -/
theorem emptyDrive_held {d : Nat} {id : ReqId} {x : DriveRec} (hx : s.drive d = some x) (hi : x.mountId = some id) :
    emptyDrive d id s = { s with mnt := { s.mnt with
      drives := s.mnt.drives.modify d DriveRec.emptied
      mounts := updWhere (fun x => x.id = id) (fun m => { m with driveHeld := false }) s.mnt.mounts } } := by
  simp only [emptyDrive, hx, hi, if_true]
  rfl

/-- A drive no record holds, without the reel that lay on it (R92). -/
theorem emptyDrive_free {d : Nat} {id : ReqId} {x : DriveRec} (hx : s.drive d = some x) (hi : x.mountId = none) :
    emptyDrive d id s = { s with mnt := { s.mnt with
      drives := s.mnt.drives.modify d DriveRec.emptied
      mounts := updWhere (fun x => x.id = id) (fun m => { m with reelLeft := false }) s.mnt.mounts } } := by
  simp only [emptyDrive, hx, hi, reduceCtorEq, if_false, if_true]
  rfl

theorem repeatRead_eq (h : s.seq.arm = .busy) (o : ArmOrder) : repeatRead o s = { s with seq := { s.seq with
    inArm := some { o with repeatUsed := true }, repeatSent := true, ref := some (s.locPoint o.dst)
    sent := s.seq.sent ++ [.repeatRead o.number] } } := by
  simp only [repeatRead, sendArm, setInArm, ← h]
  rfl

/-! ### The order in flight and its record -/

/-- An order is in flight, in a settled part whose reset pin is not held. -/
def State.inFlight (s : State) (o : ArmOrder) : Prop :=
  s.settled = true ∧ s.pins.resetHeld = false ∧ s.seq.arm = .busy ∧ s.inArmOnly o

/-- The order is one of a record that has told nothing, its originator another station, with room for a frame. -/
def State.served (s : State) (o : ArmOrder) (id : ReqId) (m : MountRec) : Prop := o.queuedBy = .mount ∧ o.mountId = some id
  ∧ s.mount id = some m ∧ m.resultSent = .none ∧ m.failure = none ∧ m.originator ≠ s.addr ∧ s.lineRoom = true

theorem completes {o : ArmOrder} {r : ArmResult} {sym : Option (List Nat)} (h : s.inFlight o) (ht : applyCompletion o r sym s = t) :
    exec (.armCompletion o.number r sym) s = .next (settle false t) :=
  completion_applies h.2.1 h.2.2.1 h.2.2.2.1 rfl ht

/-- The second fault of a record's leg: the reel is MISSING and the record closes FAILED ARM (R117). -/
theorem completes_legDropped {o : ArmOrder} {r : ArmResult} {sym : Option (List Nat)} {j k : Nat} {v : Volser} {e : HomeEntry} {id : ReqId}
    {m : MountRec} (h : s.inFlight o) (hf : o.faults r sym = true) (hsecond : o.faultTaken = true) (hform : o.form ≠ .readOnly)
    (hsrc : o.src = .slot j) (hv : o.volser = some v) (he : s.entry k = some e) (hev : e.volser = v)
    (hst : e.state = .home ∨ e.state = .out ∨ e.state = .retiring) (hhome : s.homeOf v = some (k, e)) (hrec : s.served o id m)
    (hre : m.reachedMounted = false) (hp : s.prm.prompts = []) {cells : List CellPos}
    (hab : abandonOrder o .fault s = leaveArm .fault { s with prm := { s.prm with cells := cells } }) :
    ∃ u, exec (.armCompletion o.number r sym) s = .next u ∧ s.closedAs id m .failed (some .arm) u ∧ u.dir = (s.lostEntry k e).dir
      ∧ u.line = (s.queueing (some m.originator) (.result id (.failed .arm) 0)).line ∧ u.wear = s.wear ∧ u.prm.cells = cells
      ∧ u.seq = { s.seq with
        inArm := none, arm := .fault, waiting := s.seq.waiting.filter fun w => w ≠ .sourceLocal id
        notices := s.seq.notices ++ [.armFault o.number o.purpose o.form o.src o.dst o.mountId r true] } := by
  obtain ⟨hby, hid, hm, hres, hnf, ho, hroom⟩ := hrec
  have hdrop := dropOrder_slot (r := r) hform hsrc hv (congrArg (postSeq (o.faultNotice r true)) hab) hhome he hev hst
  generalize hu : State.lostEntry (postSeq (o.faultNotice r true) (leaveArm .fault { s with prm := { s.prm with cells := cells } })) k e = u at hdrop
  have hmu : u.mount id = some m := by rw [← hu]; exact hm
  obtain ⟨hclosed, mnt, acct, hclose⟩ := failAndClose_closed (r := .arm) hmu hres hnf nofun (by rw [← hu]; exact ho)
    (by rw [← hu]; exact hroom) (by rw [← hu]; exact hp) hre
  have hrow := completes h ((applyCompletion_faults hf).trans ((if_pos hsecond).trans (hdrop.trans ((toldArm_mount hby hid hmu).trans hclose))))
  rw [hclose] at hclosed
  subst hu
  exact ⟨_, hrow, closedAs_settle hclosed false, settle_dir .., settle_line .., settle_wear .., settle_cells .., settle_fault rfl false⟩

/-- A record's reel in its slot: the record closes (R105). -/
theorem completes_home {o : ArmOrder} {sym : Option (List Nat)} {k : Nat} {v : Volser} {e : HomeEntry} {id : ReqId} {m : MountRec}
    (h : s.inFlight o) (hform : o.form = .place) (hread : Phase.read ∉ o.phases) (hdst : o.dst = .slot k) (hby : o.queuedBy = .mount)
    (hid : o.mountId = some id) (hm : s.mount id = some m) (hv : o.volser = some v) (hx : o.routing = none) (he : s.entry k = some e)
    (hev : e.volser = v) (hst : e.state = .out ∨ e.state = .missing) (hp : s.prm.prompts = []) (hre : m.reachedMounted = true)
    (hc : m.cancelPending = false) :
    ∃ u, exec (.armCompletion o.number .ok sym) s = .next u ∧ s.closedAs id m .dismounted m.failure u
      ∧ u.dir = (s.cameHome k v e (decide (m.ring ≠ .absent)) m.counts).dir ∧ u.line = s.line
      ∧ u.wear = { s.wear with handovers := s.wear.handovers ++ [⟨k, v, m.counts⟩] } := by
  have heq := placedInSlot_record (s := s.done) hby hid hm hv hx he hev hst
  obtain ⟨hclosed, mnt, acct, hclose⟩ := closeRecord_closed (s := s.done.cameHome k v e (decide (m.ring ≠ .absent)) m.counts) hm hp hre hc
  have hrow := completes h ((applyCompletion_place (sym := sym) hform hread).trans ((placeOk_slot hdst s).trans (heq.trans hclose)))
  rw [hclose] at hclosed
  exact ⟨_, hrow, closedAs_settle hclosed false, settle_dir .., settle_line .., settle_wear ..⟩

/-- A ring detour's reel in the cell: its prompt stands, and the arm's choice comes before what the record answers (R101, R116). -/
theorem completes_ring {o : ArmOrder} {sym : Option (List Nat)} {i : Nat} {id : ReqId} {m : MountRec} (h : s.inFlight o) (hform : o.form = .place)
    (hread : Phase.read ∉ o.phases) (hdst : o.dst = .cell) (hi : o.dstPos = some i) (hv : o.volser = some m.volser) (huse : o.cellUse = .ring)
    (hrec : s.served o id m) (ht : m.turningBack = false) :
    exec (.armCompletion o.number .ok sym) s = .next (settle false
      (((updMount id (fun m => { m with stage := .ring }) s.done).queueing (some m.originator) (.progress id)).posts i m.volser
        { Prompt.blank .ring m.volser with drive := some m.drive, mountId := some id })) := by
  obtain ⟨hby, hid, hm, hres, hnf, ho, hroom⟩ := hrec
  have hposts := ringPlaced_posts (s := s.done) (i := i) hm ht hres hnf ho hroom
  have hplaced : placedInCell o m.volser i s.done = ringPlaced id i s.done := by simp only [placedInCell, huse, hid]
  have hanswer (u : State) : answerPlace o false u = ringTurned id (selectArm u) := by
    simp only [answerPlace, hid, huse, Bool.false_eq_true, if_false, if_true]
  have hback (u : State) (hu : u.mnt = (updMount id (fun m => { m with stage := .ring }) s.done).mnt) :
      ringTurned id (selectArm u) = selectArm u := by
    refine ringTurned_stays fun x hx => ?_
    rw [State.mount, selectArm_mnt, hu] at hx
    cases (mount_updMount_same (f := fun m => { m with stage := .ring }) (s := s.done) (fun _ => rfl) hm).symm.trans hx
    exact ht
  have hrow := completes h ((applyCompletion_place (sym := sym) hform hread).trans ((placeOk_cell hdst hi hv s).trans ((hanswer _).trans
    (hback (placedInCell o m.volser i s.done) (by rw [hplaced, hposts]; rfl)))))
  rw [hplaced, hposts, settle_selectArm] at hrow
  exact hrow

/-- A record's slot without its reel: the record closes FAILED MISSING (R105, R124). -/
theorem completes_slotEmpty {o : ArmOrder} {sym : Option (List Nat)} {k : Nat} {v : Volser} {e : HomeEntry} {id : ReqId} {m : MountRec}
    (h : s.inFlight o) (hform : o.form = .pick) (hsrc : o.src = .slot k) (hdst : ∃ d, o.dst = .drive d) (hpos : o.srcPos = none)
    (hv : o.volser = some v) (he : s.entry k = some e) (hev : e.volser = v) (hst : e.state = .home ∨ e.state = .out ∨ e.state = .retiring)
    (hrec : s.served o id m) (hre : m.reachedMounted = false) (hp : s.prm.prompts = []) :
    ∃ u, exec (.armCompletion o.number .sourceEmpty sym) s = .next u ∧ s.closedAs id m .failed (some .missing) u
      ∧ u.dir = (s.lostEntry k e).dir ∧ u.line = (s.queueing (some m.originator) (.result id (.failed .missing) 0)).line ∧ u.wear = s.wear := by
  obtain ⟨hby, hid, hm, hres, hnf, ho, hroom⟩ := hrec
  have hslot := sourceEmpty_slot hform hsrc hv (abandonOrder_holdsNothing (.inr hdst) hpos .idle s) he hev hst
  obtain ⟨hclosed, mnt, acct, hclose⟩ := failAndClose_closed (s := (leaveArm .idle s).lostEntry k e) (r := .missing) hm hres hnf nofun ho
    hroom hp hre
  have hml : ((leaveArm .idle s).lostEntry k e).mount id = some m := hm
  have hfail := (failOf_mount hby hid hml .missing).trans hclose
  simp only [hby, hfail] at hslot
  have hrow := completes h ((applyCompletion_empty (sym := sym) (by rw [hform]; nofun)).trans hslot)
  rw [hclose] at hclosed
  exact ⟨_, hrow, closedAs_settle hclosed false, settle_dir .., settle_line .., settle_wear ..⟩

/-- Settles O53: `applyCompletion` by the result and the order's form, each outcome by the lemma of its ends. -/
theorem completionsAreApplied : Obligations.CompletionsAreApplied := by
  intro s n r sym hs hr
  refine ⟨fun h => runEvent_ends hr (onCompletion_other sym h) (settled_of_same hs rfl rfl rfl rfl), fun o harm hin hn hq => ?_⟩
  subst hn
  intro goes read found inHand toCell freeCell missing held ofRecord result closes abandoned faults
  have hone : s.inArmOnly o := ⟨hin, hq⟩
  have hfly : s.inFlight o := ⟨hs, hr, harm, hone⟩
  have go {t : State} (h : applyCompletion o r sym s = t) : exec (.armCompletion o.number r sym) s = .next (settle false t) :=
    completes hfly h
  have ends {t : State} (h : applyCompletion o r sym s = t) (ht : t.settled = true) : exec (.armCompletion o.number r sym) s = .next t := by
    rw [go h, settle_of_settled ht]
  refine ⟨fun hf => ?faults, fun hres hform => ?pick, fun hres hform hread hrep => ?repeats, fun hres hform hread => ?place,
    fun hres hform => ?occupied, fun hres hsrcpos => ?empty⟩
  case faults =>
    have happ := applyCompletion_faults (s := s) ((faults_iff o r sym).mpr hf)
    refine ⟨fun hfirst => ?first, fun k v e i hsecond hform hby hid hsrc hdst hsp hdp hw hheld hhome => ?retired,
      fun j k v e id m hsecond hform hsrc hdst hsp hheld hhome hrec hre hp => ?leg⟩
    case first => exact ends (happ.trans (if_neg (by rw [hfirst]; exact Bool.false_ne_true))) (settled_of_engaged hs (.inr rfl) rfl)
    case retired =>
      obtain ⟨hv, he, hev, hst⟩ := hheld
      have hab := abandonOrder_cell hone hdst hdp hsp hw .fault
      have hdrop := dropOrder_slot (r := r) hform hsrc hv (congrArg (postSeq (o.faultNotice r true)) hab) hhome he hev hst
      refine ends (happ.trans ((if_pos hsecond).trans (hdrop.trans ?_))) ?_
      · simp only [toldArm, hby, retireFailed_slot hsrc hv]
        rfl
      · have hd : s.displaySettled = true := (Bool.and_eq_true_iff.mp hs).2
        exact Bool.and_eq_true_iff.mpr ⟨rfl, (displaySettled_congr rfl rfl rfl rfl).trans hd⟩
    case leg =>
      obtain ⟨hv, he, hev, hst⟩ := hheld
      have fails {cells : List CellPos}
          (hab : abandonOrder o .fault s = leaveArm .fault { s with prm := { s.prm with cells := cells } }) :=
        completes_legDropped hfly ((faults_iff o r sym).mpr hf) hsecond hform hsrc hv he hev hst hhome hrec hre hp hab
      obtain ⟨d, hd⟩ | ⟨i, hd, hi, hw⟩ := hdst
      · obtain ⟨u, h1, h2, h3, h4, h5, h6, h7⟩ := fails (abandonOrder_holdsNothing (.inr ⟨d, hd⟩) hsp .fault s)
        refine ⟨u, h1, h2, h3, h4, h5, h6.trans ?_, h7⟩
        rw [hd]
      · obtain ⟨u, h1, h2, h3, h4, h5, h6, h7⟩ := fails (abandonOrder_cell hone hd hi hsp hw .fault)
        refine ⟨u, h1, h2, h3, h4, h5, h6.trans ?_, h7⟩
        rw [hd, hi]
  case pick =>
    subst hres
    refine ⟨fun k h hsrc hfound => ?slot, fun d id k h v hsrc hp hdst hv hfound hid hk => ⟨fun x hx hxi => ?held, fun y hy hyi => ?free⟩,
      fun d x h hsrc hp hfound hx hup hcr hroom => ?relay, fun k d v w e id m i hsrc hdst hread hheld hrec hcell => ?mismatch,
      fun k d i hsrc hdst hread hrep hby hcell => ?unreadable⟩
    case slot => exact go ((applyCompletion_finds hform hfound).trans (pickDone_slot hsrc _))
    case held =>
      obtain ⟨j, hdst⟩ := hdst
      refine go ((applyCompletion_finds hform hfound).trans ((pickDone_drive (s := setHint h s) hone hsrc hp hdst hv hid hk).trans ?_))
      rw [emptyDrive_held (s := setHint h s) hx hxi]
      rfl
    case free =>
      obtain ⟨j, hdst⟩ := hdst
      refine go ((applyCompletion_finds hform hfound).trans ((pickDone_drive (s := setHint h s) hone hsrc hp hdst hv hid hk).trans ?_))
      rw [emptyDrive_free (s := setHint h s) hy hyi]
      rfl
    case relay =>
      have hgone := headGone_only (s := (setHint h s).holds o.placing) hx hup hcr hroom
      refine go ((applyCompletion_finds hform hfound).trans ((pickDone_relay hsrc hp hgone (by cases d <;> rfl)).trans ?_))
      cases d <;> rfl
    case mismatch =>
      obtain ⟨hv, he, hev, hst⟩ := hheld
      obtain ⟨hby, hid, hm, hres, hnf, ho, hroom⟩ := hrec
      obtain ⟨hw, hi⟩ := hcell
      refine go ((applyCompletion_reads hform hread).trans ((pickMismatch_slot hone hsrc ⟨d, hdst⟩ hv hby hid hm hw hi he hev hst).trans ?_))
      refine (recordMisfiled_eq ?_ hres hnf ?_ ?_).trans ?_
      · exact hm
      · exact ho
      · exact hroom
      · rfl
    case unreadable =>
      obtain ⟨hw, hi⟩ := hcell
      exact go ((applyCompletion_reads hform hread).trans ((if_pos hrep).trans (pickUnreadable_slot hone hsrc ⟨d, hdst⟩ hby hw hi)))
  case repeats =>
    subst hres
    exact ends ((applyCompletion_repeats hform hread hrep).trans (repeatRead_eq harm o)) (settled_of_engaged hs (.inl harm) rfl)
  case place =>
    subst hres
    intro done homes
    have place {t : State} (h : placeOk o s = t) : exec (.armCompletion o.number .ok sym) s = .next (settle false t) :=
      go ((applyCompletion_place hform hread).trans h)
    refine ⟨fun k v x e hdst ho hv hx he hev hst => ?lane, fun k v e id m hdst hby hid hm hv hx he hev hst hp hre hc => ?home,
      fun d id m x hdst huse hrec hd ht hx hst hxi => ?drive, fun d x hdst ho hx hroom => ?mouth, fun v i hdst hi hv => ?cell⟩
    case lane => exact place ((placeOk_slot hdst s).trans (placedInSlot_lane (s := s.done) ho hv hx he hev hst))
    case home => exact completes_home hfly hform hread hdst hby hid hm hv hx he hev hst hp hre hc
    case drive =>
      obtain ⟨hby, hid, hm, hres, hnf, ho, hroom⟩ := hrec
      have hload := placedOnDrive_loads (s := s.done) hm hd ht hx hst hxi hres hnf ho hroom
      refine place ((placeOk_drive hdst hid s).trans ?_)
      rw [hload]
      exact answerPlace_quiet (by rw [huse]; nofun) _
    case mouth =>
      refine place ((placeOk_mouth hdst s).trans ((closeOf_unowned ho _).trans ((depositReel_sends (s := s.done) hx hroom).trans ?_)))
      cases d <;> rfl
    case cell =>
      intro posts
      have puts {t : State} (huse : o.cellUse ≠ .ring) (h : placedInCell o v i s.done = t) :
          exec (.armCompletion o.number .ok sym) s = .next (settle false t) :=
        place ((placeOk_cell hdst hi hv s).trans ((answerPlace_quiet huse _).trans h))
      refine ⟨fun ho huse => ?remove, fun w ho huse => ?label, fun ho huse => ?occupiedSlot, fun k hby huse hid hsrc => ?retire,
        fun huse => ?reread, fun id m huse hrec ht hmv => ?ring⟩
      case remove =>
        refine puts (by rw [huse]; nofun) ?_
        simp only [placedInCell, huse, closeOf_unowned ho]
        exact postCellReel_eq rfl rfl rfl ..
      case label =>
        refine puts (by rw [huse]; nofun) ?_
        simp only [placedInCell, huse, closeOf_unowned ho]
        exact postCellReel_eq rfl rfl rfl ..
      case occupiedSlot =>
        refine puts (by rw [huse]; nofun) ?_
        simp only [placedInCell, huse, closeOf_unowned ho]
        exact postCellReel_eq rfl rfl rfl ..
      case retire =>
        refine puts (by rw [huse]; nofun) ?_
        simp only [placedInCell, huse, hsrc, Loc.slot?, retirePlaced]
        rw [postCellReel_eq rfl rfl rfl]
        rfl
      case reread =>
        refine puts (by rw [huse]; nofun) ?_
        simp only [placedInCell, huse]
        exact postCellReel_eq rfl rfl rfl ..
      case ring =>
        subst hmv
        exact completes_ring hfly hform hread hdst hi hv huse hrec ht
  case occupied =>
    subst hres
    intro back
    refine ⟨fun k v e i hdst hheld hcell => ?slotTaken, fun d hdst => ?mouthTaken,
      fun d id m x k hdst hrec horder hdiv hd hheld hx hh hk => ?driveTaken⟩
    case slotTaken =>
      obtain ⟨hv, he, hev, hst⟩ := hheld
      obtain ⟨hw, hi⟩ := hcell
      exact go ((applyCompletion_occupied hform (by rw [hdst]; nofun)).trans (destOccupied_slot hone hdst hv he hev hst hw hi))
    case mouthTaken => exact go ((applyCompletion_occupied hform (by rw [hdst]; nofun)).trans (destOccupied_mouth hone hdst))
    case driveTaken =>
      obtain ⟨hby, hid, hm, hres, hnf, ho, hroom⟩ := hrec
      exact go ((applyCompletion_occupied hform (by rw [hdst]; nofun)).trans
        (destOccupied_drive hone hdst hid hm hres hnf ho hroom horder hdiv hd hheld hx hh hk))
  case empty =>
    subst hres
    refine ⟨fun k d v e id m hform hsrc hdst hheld hrec hre hp => ?slotEmpty, fun k v e i hform hby hid hsrc hdst hi hw hheld => ?retirement,
      fun d k x hform hsrc hdst ho hx hup hcr hroom => ?mouthEmpty, fun k e hform hsrc hdst he hst hl => ?audit⟩
    case slotEmpty =>
      obtain ⟨hv, he, hev, hst⟩ := hheld
      exact completes_slotEmpty hfly hform hsrc ⟨d, hdst⟩ hsrcpos hv he hev hst hrec hre hp
    case retirement =>
      obtain ⟨hv, he, hev, hst⟩ := hheld
      have hslot := sourceEmpty_slot hform hsrc hv (abandonOrder_cell hone hdst hi hsrcpos hw .idle) he hev hst
      rw [hby] at hslot
      exact go ((applyCompletion_empty (by rw [hform]; nofun)).trans (hslot.trans (retireFailed_slot hsrc hv ..)))
    case mouthEmpty =>
      have hmouth := sourceEmpty_mouth hform hsrc ho (abandonOrder_holdsNothing (.inl ⟨k, hdst⟩) hsrcpos .idle s) hx hup hcr hroom
      have hrow := go ((applyCompletion_empty (by rw [hform]; nofun)).trans hmouth)
      rw [settle_selectArm] at hrow
      exact hrow
    case audit =>
      exact go ((applyCompletion_empty (by rw [hform]; nofun)).trans (sourceEmpty_audit hform hsrc hdst hsrcpos he hst hl))

end
end Sys2Proof.Machine
